-- ==== Sys2Proof/Word.lean ====
section
/-! DEFINITION. The words the Ifadon 3120 carries: bytes of the channels and of Page Memory, document keys, text. -/
namespace Sys2Proof

/-- One byte of a channel, one gray value of a page buffer, one phase value. -/
abbrev Byte := BitVec 8

/-- A document key: a 48-bit unsigned number (00_scope, Keys). -/
abbrev Key := BitVec 48

/-- A text, one character code per character (00_scope, Characters). -/
abbrev Text := List Nat

end Sys2Proof
end

