-- ==== Sys2Proof/Syntax.lean ====
section
/-! DEFINITION. The commands: one constructor per row of spec/opcode_table.json. A request row carries no operand of its
own: what it executes is the oldest waiting request frame, whose bytes are its operands (R192, DEDUCED, log entry 1). -/
namespace Sys2Proof

inductive Instr where
  | defineLane
  | mapClass
  | lookup
  | findNext
  | amend
  | withdraw
  | purge
  | place
  | openFiche
  | readFiche
  | close
  | fence
  | requeue
  | release
  | loadArbitration
  | loadCurve
  | setFilm
  | setStandby
  | lampOn
  | lampOff
  | lampClear
  | readStatus
  | readAttention
  | setAttentionMask
  | readCounters
  | reset
  | unknownRequest
  /-- The bytes strobed from the assertion of frame-select to its deassertion (R182). -/
  | frameArrival (strobed : List Byte)
  | sendCompletion
  | resetLine
  /-- `frameSelect`: whether the inbound frame-select line is asserted at the release (R182, R208). -/
  | resetLineRelease (frameSelect : Bool)
  | powerOn
  /-- The twelfth header byte. -/
  | imageHeader (byte : Byte)
  /-- The byte that completes line H of a RECEIVING transfer. -/
  | imageEnd (byte : Byte)
  /-- The last byte to drop of a DISCARDING transfer. -/
  | discardingEnd (byte : Byte)
  | imageAbort
  /-- The context whose image-wait timer expires, 0 to 7. -/
  | imageWaitExpiry (context : Nat)
  | grantDecision
  | advanceDone
  | titleDone
  | cellDone
  | indexCellDone
  | cutCompletion
  | spoilCompletion
  | lampStable
  | lampFault
  | jam
  | doorOpen
  | warmUpExpiry
  | standbyExpiry
  /-- The stored bit that changes: a buffer 0 to 4095, a spot row 0 to 1535, a check group of that row 0 to 255,
  and a bit of the group's 72 (R94). -/
  | storageUpset (buffer row group bit : Nat)
  /-- Any other byte taken from the image port. -/
  | imageByteTaken (byte : Byte)
  | imageAbortRelease
  deriving DecidableEq, Repr

end Sys2Proof
end

