-- ==== Sys2Proof/Decode.lean ====
section
/-! DEFINITION. The commands that a word spells by the table's bits. -/
namespace Sys2Proof

/-- No row of spec/opcode_table.json has bits, so no word spells a command (DEDUCED, log entry 29). -/
def decodeTableWord (_nbits _w : Nat) : Option Instr := none

end Sys2Proof
end

