-- ==== Sys2Proof/Config.lean ====
section
/-! DEFINITION. The values the manual leaves open. They are opaque: nothing can be proved about them. -/
namespace Sys2Proof.Config

/-- A byte the manual does not state (DESIGN CHOICE, log entries 12 and 13): the n-th such byte the part sends. -/
opaque freeByte : Nat → Byte

/-- Whether the dot at (column, row) of the glyph of a character code is ink (R107 fixes the grid, column 7,
row 11 and the space; every other dot is left to the part's character set: DESIGN CHOICE, log entry 11). -/
opaque glyphInk : Nat → Nat → Nat → Bool

end Sys2Proof.Config
end

