-- ==== Sys2Proof/Machine/State.lean ====
section
/-! DEFINITION. The state of the Ifadon 3120: what each of its nine blocks holds, and its value after power-on. -/
namespace Sys2Proof.Machine

/-! ## Names and codes -/

abbrev LaneId := Fin 4
abbrev CtxId := Fin 8

/-- The four grid formats (R1). -/
inductive Format where | g1 | g2 | g3 | g4
  deriving DecidableEq, Repr

/-- R7. -/
inductive SplitPolicy where | keep | allow
  deriving DecidableEq, Repr

/-- R7: whether ink exposes as low or high drive. -/
inductive Polarity where | negative | positive
  deriving DecidableEq, Repr

/-- R6. -/
inductive TitleSize where | normal | wide | tall | large
  deriving DecidableEq, Repr

/-- R7: the title line that the serial position names. -/
inductive TitleLineNo where | line1 | line2
  deriving DecidableEq, Repr

/-- R19: one cell per page, or two. -/
inductive Span where | single | wide
  deriving DecidableEq, Repr

/-- R43. -/
inductive Half where | whole | left | right
  deriving DecidableEq, Repr

/-- R43. -/
inductive ImageState where | awaiting | present | missing | damaged
  deriving DecidableEq, Repr

/-- R41. -/
inductive CloseCause where | host | full | split
  deriving DecidableEq, Repr

/-- The completion codes of a reply (R195). -/
inductive Completion where
  | ok | queueFull | malformed | unknown | noLane | duplicate | notFound | condition | frozen | noRoom | noContext
  | directoryFull | tooLarge | splitFixed | busy | state | nothingOpen | aborted
  deriving DecidableEq, Repr

/-! ## Lane Table (chapter 1) -/

structure TitleLine where
  text : Text
  size : TitleSize
  deriving DecidableEq, Repr

structure SerialPosition where
  line : TitleLineNo
  column : Nat
  deriving DecidableEq, Repr

/-- A lane definition (R7), less the next serial, which exists whether or not the lane is defined. -/
structure LaneDef where
  enabled : Bool
  format : Format
  k : Fin 4
  split : SplitPolicy
  line1 : TitleLine
  line2 : TitleLine
  spacing : Nat
  serialPosition : Option SerialPosition
  polarity : Polarity
  curve : Fin 4
  gain : Nat
  bias : Nat
  imageWait : Nat
  deriving DecidableEq, Repr

/-- `definition = none` is the condition undefined (R7). -/
structure Lane where
  nextSerial : Nat
  definition : Option LaneDef
  deriving DecidableEq, Repr

structure LaneTable where
  lanes : Vector Lane 4
  classMap : Vector LaneId 16
  deriving DecidableEq, Repr

/-! ## Placement Directory (chapter 2) -/

/-- The run of pages of one record on one fiche (R20). -/
structure RecordPart where
  ctx : CtxId
  serial : Nat
  firstCell : Nat
  firstPage : Nat
  pages : Nat
  deriving DecidableEq, Repr

/-- R19. -/
structure Record where
  key : Key
  cls : Fin 16
  lane : LaneId
  span : Span
  pageCount : Nat
  revision : BitVec 16
  parts : List RecordPart
  released : Nat
  deriving DecidableEq, Repr

/-! ## Fiche Composer (chapters 3 and 7) -/

/-- An OCCUPIED cell map entry (R43). -/
structure Occupied where
  key : Key
  page : Nat
  half : Half
  image : ImageState
  buffer : Option Nat
  cropped : Bool
  saturated : Bool
  deriving DecidableEq, Repr

/-- R43. -/
inductive Cell where
  | free
  | index
  | occupied (o : Occupied)
  deriving DecidableEq, Repr

/-- The states of a context that holds a fiche (R42); a context without a fiche is FREE. -/
inductive FicheState where | composing | closing | queued | exposing | exposed | failed
  deriving DecidableEq, Repr

/-- The fields a context has while it is not FREE (R41). -/
structure Fiche where
  state : FicheState
  lane : LaneId
  serial : Nat
  format : Format
  k : Fin 4
  split : SplitPolicy
  lines : List TitleLine
  spacing : Nat
  polarity : Polarity
  curve : Fin 4
  gain : Nat
  bias : Nat
  imageWait : Nat
  cells : List Cell
  indexUsed : Nat
  cause : Option CloseCause
  /-- The image-wait timer: stopped, or the seconds left, rounded up (R128). -/
  timer : Option Nat
  attempts : Nat
  cellsDone : Nat
  corrected : Nat
  saturatedCells : Nat
  titleClipped : Bool
  deriving DecidableEq, Repr

/-- `contexts[c] = none` is a FREE context (R41); the queues are head first (R130). -/
structure Composer where
  contexts : Vector (Option Fiche) 8
  queues : Vector (List CtxId) 4
  deriving DecidableEq, Repr

/-! ## Image Intake (chapter 4) -/

/-- The twelve header bytes as fields (R75). -/
structure Header where
  key : Key
  page : Nat
  depth : Nat
  width : Nat
  height : Nat
  deriving DecidableEq, Repr

/-- The reduction figures of a transfer (R82, R83). -/
structure Figures where
  step : Nat
  ow : Nat
  oh : Nat
  ox : Nat
  oy : Nat
  cropped : Bool
  deriving DecidableEq, Repr

/-- What a MATCHED header fixes for its transfer (R74, R80). -/
structure Matched where
  header : Header
  format : Format
  span : Span
  figures : Figures
  deriving DecidableEq, Repr

/-- The judgment of a transfer in DISCARDING (R74). -/
inductive Rejection where | orphan | late
  deriving DecidableEq, Repr

/-- Image Intake (R74). READY holds the header bytes taken; RECEIVING also holds the line being received and the window
sums, one per spot of the block, of the spot row in progress (R86). -/
inductive Intake where
  | ready (taken : List Byte)
  | stalled (m : Matched)
  | receiving (m : Matched) (buffers : List Nat) (lines : Nat) (line : List Byte) (sums : List Nat)
  | discarding (h : Header) (judgment : Rejection) (toDrop : Nat)
  deriving DecidableEq, Repr

/-! ## Page Memory (chapter 5) -/

/-- Page Memory. `spots` holds the gray values as written, `upsets` the bits of each check group's 72 that differ from
what was written, `extents` the written extents; each lists only what differs from its default (DESIGN CHOICE, log entry 9). -/
structure Memory where
  spots : List Host.Cell
  upsets : List (Nat × BitVec 72)
  extents : List (Nat × Option Format)
  deriving DecidableEq, Repr

/-! ## Exposure Arbiter (chapter 8) -/

/-- R140. -/
structure Arbiter where
  active : Vector Byte 32
  pendingTable : Vector Byte 32
  pendingFlag : Bool
  pointer : Fin 32
  lastLane : LaneId
  deriving DecidableEq, Repr

/-! ## Exposure Gate (chapter 9) -/

/-- R154. The index list of R114 is formed at the start of INDEX and kept for its cells. -/
inductive GateState where
  | idle
  | advance (ctx : CtxId)
  | title (ctx : CtxId)
  | cells (ctx : CtxId) (current : Nat)
  | index (ctx : CtxId) (current : Nat) (list : List Text)
  | cut (ctx : CtxId)
  | spoil
  | stopped
  deriving DecidableEq, Repr

/-- What turns a gray value into a drive value: the fiche's settings and its curve's active copy (R162, R163). -/
structure DriveSettings where
  polarity : Polarity
  curve : Vector Nat 17
  gain : Nat
  bias : Nat
  deriving DecidableEq, Repr

/-- What a region shows (its drive values are computed from it: DEDUCED, log entry 22): the title strip, a page cell (its buffer's spots, addressed 2048 to a row), a placeholder, or
an index cell with its lines. -/
inductive Picture where
  | title (format : Format) (lines : List TitleLine) (spacing : Nat)
  | page (format : Format) (spots : List Host.Cell)
  | placeholder (format : Format) (line1 line2 : Text)
  | index (format : Format) (lines : List Text)
  deriving DecidableEq, Repr

/-- The step on the gate lines (R155); an exposure carries what its drive values follow from. `x` and `y` are the
region's top-left corner on the sheet (R5). -/
inductive Step where
  | advance
  | expose (x y : Nat) (picture : Picture) (settings : DriveSettings)
  | cut
  | spoilCut
  deriving DecidableEq, Repr

/-- R168. -/
inductive LampState where | off | warming | ready | standby | fault
  deriving DecidableEq, Repr

/-- A density curve (R165). -/
structure Curve where
  active : Vector Nat 17
  pendingCopy : Vector Nat 17
  pendingFlag : Bool
  deriving DecidableEq, Repr

/-- R154. Timers are stopped, or hold the seconds left, rounded up. -/
structure Gate where
  state : GateState
  step : Option Step
  film : Nat
  lamp : LampState
  warmUp : Option Nat
  standby : Option Nat
  standbyPeriod : Nat
  curves : Vector Curve 4
  deriving DecidableEq, Repr

/-! ## Request Port (chapter 10) -/

/-- A taken request frame (R182, R184): at most 132 bytes, and whether more were strobed. -/
structure Frame where
  bytes : List Byte
  overLong : Bool
  deriving DecidableEq, Repr

/-- A reply frame (R185). -/
structure Reply where
  code : Byte
  sequence : Byte
  completion : Completion
  body : List Byte
  deriving DecidableEq, Repr

/-- R137. -/
inductive FenceOutcome where | exposed | notExposed
  deriving DecidableEq, Repr

structure FenceMember where
  ctx : CtxId
  serial : Nat
  outcome : Option FenceOutcome
  deriving DecidableEq, Repr

/-- A parked fence with the code and sequence its reply will carry (R136, R138). -/
structure PendingFence where
  code : Byte
  sequence : Byte
  tag : Byte
  members : List FenceMember
  deriving DecidableEq, Repr

/-- The seven device counters (R201). -/
structure Counters where
  correctedEcc : Nat
  uncorrectableEcc : Nat
  spoiledSheets : Nat
  orphanImages : Nat
  lateImages : Nat
  missingPlaceholders : Nat
  saturatedCells : Nat
  deriving DecidableEq, Repr

structure Port where
  waiting : List Frame
  outbound : List Reply
  fences : List PendingFence
  dropped : Nat
  flags : BitVec 24
  mask : BitVec 24
  counters : Counters
  deriving DecidableEq, Repr

/-- The levels of the lines into the part that outlast one event. `staleSelect`: the frame-select assertion in
progress began before the reset line was released, so its frame is not taken (R182, R208, DEDUCED, log entry 7). -/
structure Lines where
  resetLine : Bool
  abortLine : Bool
  staleSelect : Bool
  deriving DecidableEq, Repr

/-! ## The whole part -/

structure State where
  /-- The commands waiting, first in, first out. -/
  pending : List Instr
  lines : Lines
  laneTable : LaneTable
  /-- The records, in ascending key order (R18). -/
  directory : List Record
  composer : Composer
  intake : Intake
  memory : Memory
  arbiter : Arbiter
  gate : Gate
  port : Port
  /-- The model's own: numbers the free values drawn so far (DESIGN CHOICE, log entry 23). -/
  free : Nat
  deriving DecidableEq, Repr

/-- Why the machine stops. No event of the part stops it; only a command that names nothing does (DESIGN CHOICE, log entry 27). -/
inductive Fault where
  /-- Raised by IMAGE_WAIT_EXPIRY of a context above 7, which does not exist (R41). Safe: the part has no such event. -/
  | noSuchContext
  /-- Raised by STORAGE_UPSET of a bit outside the buffers of R94. Safe: the part has no such bit. -/
  | noSuchStorage
  deriving DecidableEq, Repr

/-- Why a command has no meaning. -/
inductive Refusal where
  /-- Raised by an arm of `exec` whose command is not modelled yet. Safe: nothing is claimed of it. -/
  | notModelled (mnemonic : String)
  deriving DecidableEq, Repr

/-- R10, R16. -/
def LaneTable.initial : LaneTable :=
  ⟨Vector.replicate 4 ⟨0, none⟩, Vector.replicate 16 0⟩

/-- R70. -/
def Composer.initial : Composer :=
  ⟨Vector.replicate 8 none, Vector.replicate 4 []⟩

/-- R152: phase p names lane p mod 4. -/
def Arbiter.defaultTable : Vector Byte 32 :=
  Vector.ofFn fun p => BitVec.ofNat 8 (p.val % 4)

/-- R152. -/
def Arbiter.initial : Arbiter :=
  ⟨Arbiter.defaultTable, Arbiter.defaultTable, false, 0, 3⟩

/-- R165: entry i is 255 × i in both copies. -/
def Curve.initial : Curve :=
  ⟨Vector.ofFn fun i => 255 * i.val, Vector.ofFn fun i => 255 * i.val, false⟩

/-- R180, R168, R173. -/
def Gate.initial : Gate :=
  ⟨.idle, none, 0, .off, none, none, 90, Vector.replicate 4 Curve.initial⟩

/-- R203. -/
def Counters.zero : Counters := ⟨0, 0, 0, 0, 0, 0, 0⟩

/-- Every one of the 22 positions enabled (R200). -/
def Port.fullMask : BitVec 24 := 0x3FFFFF#24

/-- R208, R209. -/
def Port.initial : Port := ⟨[], [], [], 0, 0#24, Port.fullMask, Counters.zero⟩

/-- The part right after power-on (R209 and the rules of each block it stands on). The two input lines are taken as
deasserted (DESIGN CHOICE, log entry 6), Page Memory lists nothing (DESIGN CHOICE, log entry 9). -/
def State.reset : State where
  pending := []
  lines := ⟨false, false, false⟩
  laneTable := LaneTable.initial
  directory := []
  composer := Composer.initial
  intake := .ready []
  memory := ⟨[], [], []⟩
  arbiter := Arbiter.initial
  gate := Gate.initial
  port := Port.initial
  free := 0

end Sys2Proof.Machine
end

