-- ==== Sys2Proof/Machine/Formats.lean ====
section
/-! DEFINITION. The fixed figures of the formats, cell addresses, and the text and drive values of what the gate
exposes (chapters 1, 6 and 9.2). -/
namespace Sys2Proof.Machine

/-! ## Grid formats -/

/-- R1. -/
def Format.rows : Format → Nat
  | .g1 => 6 | .g2 => 9 | .g3 => 12 | .g4 => 15

/-- R1. -/
def Format.columns : Format → Nat
  | .g1 => 12 | .g2 => 16 | .g3 => 20 | .g4 => 24

/-- R1. -/
def Format.cells (f : Format) : Nat := f.rows * f.columns

/-- The width Fw of the cell raster (R1). -/
def Format.cellWidth : Format → Nat
  | .g1 => 2048 | .g2 => 1536 | .g3 => 1280 | .g4 => 1024

/-- The height Fh of the cell raster (R1). -/
def Format.cellHeight : Format → Nat
  | .g1 => 1536 | .g2 => 1152 | .g3 => 960 | .g4 => 768

/-- The index entries E of one index cell (R1). -/
def Format.indexEntries : Format → Nat
  | .g1 => 48 | .g2 => 36 | .g3 => 30 | .g4 => 24

/-- R1: the strip spans the grid exactly. -/
def Format.stripWidth (f : Format) : Nat := f.columns * f.cellWidth

/-- The height of the title strip (R5). -/
def stripHeight : Nat := 1440

/-- The cells not reserved for the index (R4). -/
def usableCells (f : Format) (k : Fin 4) : Nat := f.cells - k.val

/-- R4: k × E, which is 0 for k = 0 as a reply gives it (R49). -/
def indexCapacity (f : Format) (k : Fin 4) : Nat := k.val * f.indexEntries

/-- The cells per page, s (R19). -/
def Span.cells : Span → Nat
  | .single => 1 | .wide => 2

/-- The top-left spot of a cell on the sheet (R5). -/
def cellOrigin (f : Format) (cell : Nat) : Nat × Nat :=
  (cell % f.columns * f.cellWidth, stripHeight + cell / f.columns * f.cellHeight)

/-! ## Printed text -/

/-- `n` in decimal with `width` digits, zero-padded, most significant first. -/
def decimal (width n : Nat) : Text :=
  (List.range width).map fun i => 48 + n / 10 ^ (width - 1 - i) % 10

/-- The printed address of a cell: the row letter and the one-based column (R3). -/
def printedCell (f : Format) (cell : Nat) : Text :=
  (65 + cell / f.columns) :: decimal 2 (cell % f.columns + 1)

def asciiText (s : String) : Text := s.toList.map Char.toNat

/-- The code a character is stored as: outside 32 to 126 it is "?" (R13, R48). -/
def printable (c : Nat) : Nat := if c < 32 ∨ 126 < c then 63 else c

/-- The serial written into a line from a column (R110): the line is extended with spaces to the column, and digits
whose column would be 40 or more are dropped. -/
def writeSerial (text : Text) (column serial : Nat) : Text :=
  let padded := text ++ List.replicate (column - text.length) 32
  let digits := (decimal 6 serial).take (40 - column)
  padded.take column ++ digits ++ padded.drop (column + digits.length)

/-- Line 2 of the template is present when it holds characters or the serial position names it (R7). -/
def LaneDef.line2Present (d : LaneDef) : Bool :=
  !d.line2.text.isEmpty || (d.serialPosition.map (·.line)) == some .line2

/-- The title lines a fiche takes from its lane's template with its serial written in (R46, R110). -/
def LaneDef.titleLines (d : LaneDef) (serial : Nat) : List TitleLine :=
  let write (no : TitleLineNo) (l : TitleLine) : TitleLine :=
    match d.serialPosition with
    | some p => if p.line = no then { l with text := writeSerial l.text p.column serial } else l
    | none => l
  write .line1 d.line1 :: if d.line2Present then [write .line2 d.line2] else []

/-! ## Glyphs -/

/-- The gray value of the dot at (column, row) of the glyph of a code (R107): ink is 0 and paper 255; column 7, row 11 and
the space are paper; a code outside the set has the glyph of "?". -/
def glyphGray (code column row : Nat) : Nat :=
  let c := printable code
  if column < 7 ∧ row < 11 ∧ c ≠ 32 ∧ Config.glyphInk c column row then 0 else 255

/-- The gray value at (x, y) of a text drawn from (x0, y0) with dots of w × h spots (R108): 255 where no glyph lies. -/
def textGray (text : Text) (x0 y0 w h x y : Nat) : Nat :=
  if x0 ≤ x ∧ y0 ≤ y ∧ y < y0 + 12 * h then
    match text[(x - x0) / (8 * w)]? with
    | some code => glyphGray code ((x - x0) % (8 * w) / w) ((y - y0) / h)
    | none => 255
  else 255

/-! ## The title strip -/

/-- R6, R108. -/
def TitleSize.dotWidth : TitleSize → Nat
  | .normal => 40 | .wide => 80 | .tall => 40 | .large => 80

/-- R6, R108. -/
def TitleSize.dotHeight : TitleSize → Nat
  | .normal => 40 | .wide => 40 | .tall => 80 | .large => 80

def TitleSize.glyphWidth (t : TitleSize) : Nat := 8 * t.dotWidth
def TitleSize.glyphHeight (t : TitleSize) : Nat := 12 * t.dotHeight

/-- The characters of a kept line that are drawn: those whose glyph ends within the strip (R112). -/
def drawnText (f : Format) (l : TitleLine) : Text :=
  l.text.take (f.stripWidth / l.size.glyphWidth)

/-- The top row of line 2 (R111). -/
def line2Top (l1 : TitleLine) (spacing : Nat) : Nat := l1.size.glyphHeight + 16 * spacing

/-- Whether line 2 fits the strip (R111). -/
def line2Kept (l1 l2 : TitleLine) (spacing : Nat) : Bool :=
  line2Top l1 spacing + l2.size.glyphHeight ≤ stripHeight

/-- Whether the layout drops line 2 or a character of a kept line (R113). -/
def titleClips (f : Format) (lines : List TitleLine) (spacing : Nat) : Bool :=
  let short (l : TitleLine) : Bool := (drawnText f l).length < l.text.length
  match lines with
  | [] => false
  | [l1] => short l1
  | l1 :: l2 :: _ => short l1 || if line2Kept l1 l2 spacing then short l2 else true

/-- The gray value at (x, y) of the title strip (R111, R112, R108). -/
def titleGray (f : Format) (lines : List TitleLine) (spacing x y : Nat) : Nat :=
  let line (l : TitleLine) (top : Nat) : Nat :=
    textGray (drawnText f l) 0 top l.size.dotWidth l.size.dotHeight x y
  match lines with
  | [] => 255
  | [l1] => line l1 0
  | l1 :: l2 :: _ =>
    min (line l1 0) (if line2Kept l1 l2 spacing then line l2 (line2Top l1 spacing) else 255)

/-! ## Index cells and placeholders -/

/-- The gray value at (x, y) of an index cell that carries these lines (R117). -/
def indexGray (f : Format) (lines : List Text) (x y : Nat) : Nat :=
  match lines[y / 32]? with
  | some line => textGray line ((f.cellWidth - 384) / 2) (32 * (y / 32) + 4) 2 2 x y
  | none => 255

/-- The lines of index cell number i, counted from 0 (R117). -/
def indexCellLines (f : Format) (list : List Text) (i : Nat) : List Text :=
  (list.drop (i * f.indexEntries)).take f.indexEntries

/-- The gray value at (x, y) of a placeholder (R119). -/
def placeholderGray (f : Format) (line1 line2 : Text) (x y : Nat) : Nat :=
  let top := (f.cellHeight - 112) / 2
  let line (t : Text) (y0 : Nat) : Nat := textGray t ((f.cellWidth - 32 * t.length) / 2) y0 4 4 x y
  min (line line1 top) (line line2 (top + 64))

/-- Line 1 of a placeholder for a page that never arrived (R118). -/
def notReceivedText : Text := asciiText "PAGE NOT RECEIVED"

/-- Line 1 of a placeholder for a page that cannot be read (R118). -/
def damagedText : Text := asciiText "PAGE DAMAGED"

/-- Line 2 of a placeholder: key, page and half (R118). -/
def placeholderLine2 (o : Occupied) : Text :=
  decimal 15 o.key.toNat ++ asciiText " P" ++ decimal 2 o.page ++
    match o.half with
    | .whole => []
    | .left => asciiText " L"
    | .right => asciiText " R"

/-! ## Pictures -/

/-- What an unlisted spot of Page Memory reads as (DESIGN CHOICE, log entry 9). -/
def blankSpot : Byte := 255#8

/-- The value listed at an address, or the default. -/
def sparseGet {α : Type} (d : α) : List (Nat × α) → Nat → α
  | [], _ => d
  | (k, v) :: m, a => if a = k then v else sparseGet d m a

def Picture.width : Picture → Nat
  | .title f _ _ => f.stripWidth
  | .page f _ | .placeholder f _ _ | .index f _ => f.cellWidth

def Picture.height : Picture → Nat
  | .title _ _ _ => stripHeight
  | .page f _ | .placeholder f _ _ | .index f _ => f.cellHeight

/-- The gray value of a spot of a region, counted from its top-left corner. -/
def Picture.gray : Picture → Nat → Nat → Nat
  | .title f lines spacing, x, y => titleGray f lines spacing x y
  | .page _ spots, x, y => (sparseGet blankSpot spots (2048 * y + x)).toNat
  | .placeholder f l1 l2, x, y => placeholderGray f l1 l2 x y
  | .index f lines, x, y => indexGray f lines x y

/-! ## Drive values -/

/-- R162: h, which is g on a NEGATIVE fiche and 255 − g on a POSITIVE one. -/
def Polarity.level (p : Polarity) (g : Nat) : Nat :=
  match p with
  | .negative => g
  | .positive => 255 - g

/-- R162: the curve between entries i and i + 1, the quotient truncated toward zero. -/
def interpolate (curve : Vector Nat 17) (h : Nat) : Nat :=
  let i := h / 16
  let f := h % 16
  let lo : Int := (curve[i]?.getD 0 : Nat)
  let hi : Int := (curve[i + 1]?.getD 0 : Nat)
  (lo + ((hi - lo) * f).tdiv 16).toNat

/-- R163: the drive value before the clamp. -/
def rawDrive (d : DriveSettings) (g : Nat) : Nat :=
  interpolate d.curve (d.polarity.level g) * d.gain / 1024 + d.bias

/-- R163: the greatest drive value. -/
def maxDrive : Nat := 16383

/-- R163: the drive value the gate sends. -/
def driveValue (d : DriveSettings) (g : Nat) : Nat := min (rawDrive d g) maxDrive

/-- R163: whether a spot of this gray value is clamped. -/
def clamps (d : DriveSettings) (g : Nat) : Bool := maxDrive < rawDrive d g

/-- The drive values of a step's region, spot rows from the top and left to right (R155); a step that exposes nothing
sends none. -/
def Step.driveRows : Step → List (List Nat)
  | .expose _ _ p d =>
    (List.range p.height).map fun y => (List.range p.width).map fun x => driveValue d (p.gray x y)
  | .advance | .cut | .spoilCut => []

end Sys2Proof.Machine
end

