-- ==== Sys2Proof/Machine/Operands.lean ====
section
/-! DEFINITION. The operand forms of the link and the image port: byte order, field codings (R187), the framing of
request frames (R184, R186, R188, R193) and the twelve header bytes (R75). -/
namespace Sys2Proof.Machine

/-! ## Byte order: most significant byte first (R187, 00_scope) -/

/-- The number that bytes spell. -/
def numberOf (bytes : List Byte) : Nat := bytes.foldl (fun n b => 256 * n + b.toNat) 0

/-- A number in `width` bytes. -/
def bytesOf : (width n : Nat) → List Byte
  | 0, _ => []
  | width + 1, n => bytesOf width (n / 256) ++ [BitVec.ofNat 8 n]

/-- The field of `width` bytes at an offset of a body. -/
def field (body : List Byte) (offset width : Nat) : Nat := numberOf ((body.drop offset).take width)

def fieldKey (body : List Byte) (offset : Nat) : Key := BitVec.ofNat 48 (field body offset 6)

/-- The text of `length` characters at an offset, as carried. -/
def fieldText (body : List Byte) (offset length : Nat) : Text :=
  ((body.drop offset).take length).map BitVec.toNat

/-! ## Field codings (R187) -/

def laneOf (n : Nat) : Option LaneId := if h : n < 4 then some ⟨n, h⟩ else none
def ctxOf (n : Nat) : Option CtxId := if h : n < 8 then some ⟨n, h⟩ else none
def classOf (n : Nat) : Option (Fin 16) := if h : n < 16 then some ⟨n, h⟩ else none
def yesNoOf : Nat → Option Bool
  | 0 => some false | 1 => some true | _ => none

def formatOf : Nat → Option Format
  | 1 => some .g1 | 2 => some .g2 | 3 => some .g3 | 4 => some .g4 | _ => none
def Format.code : Format → Nat
  | .g1 => 1 | .g2 => 2 | .g3 => 3 | .g4 => 4

def splitOf : Nat → Option SplitPolicy
  | 0 => some .keep | 1 => some .allow | _ => none
def SplitPolicy.code : SplitPolicy → Nat
  | .keep => 0 | .allow => 1

def spanOf : Nat → Option Span
  | 0 => some .single | 1 => some .wide | _ => none
def Span.code : Span → Nat
  | .single => 0 | .wide => 1

def polarityOf : Nat → Option Polarity
  | 0 => some .negative | 1 => some .positive | _ => none
def Polarity.code : Polarity → Nat
  | .negative => 0 | .positive => 1

def titleSizeOf : Nat → Option TitleSize
  | 0 => some .normal | 1 => some .wide | 2 => some .tall | 3 => some .large | _ => none
def TitleSize.code : TitleSize → Nat
  | .normal => 0 | .wide => 1 | .tall => 2 | .large => 3

def Half.code : Half → Nat
  | .whole => 0 | .left => 1 | .right => 2
def ImageState.code : ImageState → Nat
  | .awaiting => 0 | .present => 1 | .missing => 2 | .damaged => 3
def CloseCause.code : CloseCause → Nat
  | .host => 0 | .full => 1 | .split => 2
def FicheState.code : FicheState → Nat
  | .composing => 1 | .closing => 2 | .queued => 3 | .exposing => 4 | .exposed => 5 | .failed => 6
def FenceOutcome.code : FenceOutcome → Nat
  | .exposed => 0 | .notExposed => 1
def LampState.code : LampState → Nat
  | .off => 0 | .warming => 1 | .ready => 2 | .standby => 3 | .fault => 4
def GateState.code : GateState → Nat
  | .idle => 0 | .advance _ => 1 | .title _ => 2 | .cells _ _ => 3 | .index _ _ _ => 4 | .cut _ => 5 | .spoil => 6
  | .stopped => 7

/-- The completion codes' values (R195). -/
def Completion.code : Completion → Byte
  | .ok => 0x00 | .queueFull => 0x01 | .malformed => 0x02 | .unknown => 0x03 | .noLane => 0x04 | .duplicate => 0x05
  | .notFound => 0x06 | .condition => 0x07 | .frozen => 0x08 | .noRoom => 0x09 | .noContext => 0x0A
  | .directoryFull => 0x0B | .tooLarge => 0x0C | .splitFixed => 0x0D | .busy => 0x0E | .state => 0x0F
  | .nothingOpen => 0x10 | .aborted => 0x11

/-- The bytes of a reply frame (R185). -/
def Reply.bytes (r : Reply) : List Byte :=
  [r.code, r.sequence, r.completion.code] ++ bytesOf 2 r.body.length ++ r.body

def bit (b : Bool) : List Byte := [if b then 1 else 0]

/-- An item that may be absent: one presence byte, then the item's bytes, 0 when it is absent (R189, R205). That a bullet of a
reply rule under a condition is one such item is DEDUCED, log entry 14. -/
def mayBeAbsent (width : Nat) : Option (List Byte) → List Byte
  | some item => 1 :: item
  | none => 0 :: List.replicate width 0

def textBytes (t : Text) : List Byte := t.map (BitVec.ofNat 8)

/-- A title line in a reply: its length byte, its size and its text (R189). The size is one byte (DEDUCED, log entry 32). -/
def TitleLine.bytes (l : TitleLine) : List Byte :=
  bytesOf 1 l.text.length ++ bytesOf 1 l.size.code ++ textBytes l.text

/-! ## Framing -/

/-- A byte of a frame; one it did not carry is 00h (R185). -/
def Frame.byte (f : Frame) (i : Nat) : Byte := f.bytes[i]?.getD 0

def Frame.body (f : Frame) : List Byte := f.bytes.drop 4

/-- The rows of the table that execute a request frame. -/
inductive RequestRow where
  | defineLane | mapClass | lookup | findNext | amend | withdraw | purge | place | openFiche | readFiche | close
  | fence | requeue | release | loadArbitration | loadCurve | setFilm | setStandby | lampOn | lampOff | lampClear
  | readStatus | readAttention | setAttentionMask | readCounters | reset | unknown
  deriving DecidableEq, Repr

/-- The row that a request code names (R186); the three LAMP rows share code 63h and are told apart by `Frame.row`. -/
def rowOfCode (code : Byte) : RequestRow :=
  match code.toNat with
  | 0x10 => .defineLane | 0x11 => .mapClass
  | 0x20 => .lookup | 0x21 => .findNext | 0x22 => .amend | 0x23 => .withdraw | 0x24 => .purge
  | 0x30 => .place | 0x31 => .openFiche | 0x32 => .readFiche
  | 0x40 => .close | 0x41 => .fence | 0x42 => .requeue | 0x43 => .release
  | 0x50 => .loadArbitration
  | 0x60 => .loadCurve | 0x61 => .setFilm | 0x62 => .setStandby | 0x63 => .lampOn
  | 0x70 => .readStatus | 0x71 => .readAttention | 0x72 => .setAttentionMask | 0x73 => .readCounters | 0x7F => .reset
  | _ => .unknown

/-- The body length R186 gives for a request whose body is `body`; `none` when the body is too short to carry the
title lengths it is computed from (R193). An OPEN FICHE with a line count above 2 is not compared (R186). -/
def expectedLength (row : RequestRow) (body : List Byte) : Option Nat :=
  match row with
  | .defineLane =>
    match body[5]?, body[7]? with
    | some l1, some l2 => some (23 + l1.toNat + l2.toNat)
    | _, _ => none
  | .openFiche =>
    match body[1]?.map BitVec.toNat with
    | none => none
    | some 0 => some 3
    | some 1 => body[2]?.map fun l1 => 5 + l1.toNat
    | some 2 =>
      match body[2]? with
      | none => none
      | some l1 => body[4 + l1.toNat]?.map fun l2 => 7 + l1.toNat + l2.toNat
    | some _ => some body.length
  | .mapClass => some 2 | .lookup => some 6 | .findNext => some 8 | .amend => some 17 | .withdraw => some 9
  | .purge => some 13 | .place => some 9 | .readFiche => some 5 | .close => some 2 | .fence => some 2
  | .requeue => some 4 | .release => some 4 | .loadArbitration => some 32 | .loadCurve => some 35 | .setFilm => some 2
  | .setStandby => some 1 | .lampOn => some 1 | .lampOff => some 1 | .lampClear => some 1 | .readStatus => some 0
  | .readAttention => some 3 | .setAttentionMask => some 3 | .readCounters => some 1 | .reset => some 0
  | .unknown => none

/-- The framing checks, in the order of R193; `none` when the frame passes them all. -/
def Frame.framingRefusal (f : Frame) : Option Completion :=
  if f.bytes.length < 4 ∨ f.overLong then some .malformed
  else if rowOfCode (f.byte 0) = .unknown then some .unknown
  else if f.bytes.length ≠ 4 + numberOf [f.byte 2, f.byte 3] then some .malformed
  else if expectedLength (rowOfCode (f.byte 0)) f.body ≠ some f.body.length then some .malformed
  else none

/-- The row that executes a frame. A LAMP frame belongs to the row of its action; one that is refused for its framing or
for an action of another value belongs to LAMP_ON (DESIGN CHOICE, log entry 2). -/
def Frame.row (f : Frame) : RequestRow :=
  let row := rowOfCode (f.byte 0)
  if row = .lampOn ∧ f.framingRefusal = none then
    match field f.body 0 1 with
    | 1 => .lampOff
    | 2 => .lampClear
    | _ => .lampOn
  else row

/-! ## The image header -/

/-- The fields of the twelve header bytes (R75). -/
def headerOf (bytes : List Byte) : Header where
  key := fieldKey bytes 0
  page := field bytes 6 1
  depth := field bytes 7 1
  width := field bytes 8 2
  height := field bytes 10 2

/-- R76. -/
def Header.invalid (h : Header) : Bool :=
  h.page = 0 ∨ (h.depth ≠ 1 ∧ h.depth ≠ 8) ∨ h.width = 0 ∨ 8192 < h.width ∨ h.height = 0 ∨ 8192 < h.height

/-- The bytes of one raster line (R77); a depth other than 1 counts as 8 (R76). -/
def Header.lineBytes (h : Header) : Nat := (h.width * (if h.depth = 1 then 1 else 8) + 7) / 8

/-- The bytes of the raster (R76, R79). -/
def Header.rasterBytes (h : Header) : Nat := h.height * h.lineBytes

/-- The gray values of one raster line (R77). -/
def grayLine (depth width : Nat) (bytes : List Byte) : List Nat :=
  (List.range width).map fun j =>
    if depth = 1 then
      if (bytes.getD (j / 8) 0).getLsbD (7 - j % 8) then 255 else 0
    else (bytes.getD j 0).toNat

end Sys2Proof.Machine
end

