-- ==== Sys2Proof/Machine/Flags.lean ====
section
/-! DEFINITION. The attention flags, their mask and the attention line (R196, R197), and the device counters (R201). -/
namespace Sys2Proof.Machine

/-- The four flags of a lane (R196). -/
inductive LaneFlag where | exposed | failed | missing | damaged
  deriving DecidableEq, Repr

/-- R196: the flags of lane l stand at bits 4 l to 4 l + 3. -/
def laneFlagBit (lane : LaneId) : LaneFlag → Nat
  | .exposed => 4 * lane.val
  | .failed => 4 * lane.val + 1
  | .missing => 4 * lane.val + 2
  | .damaged => 4 * lane.val + 3

/-- R196: bits 16 to 21. -/
def orphanBit : Nat := 16
def lateBit : Nat := 17
def poolStallBit : Nat := 18
def filmOutBit : Nat := 19
def transportBit : Nat := 20
def lampFaultBit : Nat := 21

/-- The value with one bit of 24 set. -/
def flagMask (bit : Nat) : BitVec 24 := BitVec.twoPow 24 bit

/-- Whether a 24-bit value carried on the link has bit 22 or 23 set (R198, R199). -/
def reservedSet (v : BitVec 24) : Bool := v.getLsbD 22 || v.getLsbD 23

/-- A device counter raised by an amount, saturating (R201). -/
def saturate (n amount : Nat) : Nat := min 65535 (n + amount)

def Port.setFlag (p : Port) (bit : Nat) : Port := { p with flags := p.flags ||| flagMask bit }

/-- The attention line: asserted while an enabled flag is set, deasserted while the reset line is asserted (R197). -/
def State.attentionLine (s : State) : Bool :=
  !s.lines.resetLine && (s.port.flags &&& s.port.mask) != 0#24

/-- The hold line to the scan pipeline (R72). -/
def State.holdLine (s : State) : Bool :=
  s.lines.resetLine || match s.intake with
    | .stalled _ => true
    | .ready _ | .receiving _ _ _ _ _ | .discarding _ _ _ => false

def State.setFlag (s : State) (bit : Nat) : State := { s with port := s.port.setFlag bit }

def State.setLaneFlag (s : State) (lane : LaneId) (flag : LaneFlag) : State := s.setFlag (laneFlagBit lane flag)

def State.withCounters (s : State) (f : Counters → Counters) : State :=
  { s with port := { s.port with counters := f s.port.counters } }

/-- The counters in the order of R201, as READ COUNTERS gives them (R202). -/
def Counters.list (c : Counters) : List Nat :=
  [c.correctedEcc, c.uncorrectableEcc, c.spoiledSheets, c.orphanImages, c.lateImages, c.missingPlaceholders,
    c.saturatedCells]

end Sys2Proof.Machine
end

