-- ==== Sys2Proof/Machine/Memory.lean ====
section
/-! DEFINITION. Page Memory (chapter 5): its addresses, writing a row, reading a buffer through ECC, upsets. -/
namespace Sys2Proof.Machine

/-! ## Stores in canonical form -/

/-- Writes a value; the list stays sorted and lists no default. -/
def sparsePut {α : Type} [DecidableEq α] (d : α) : List (Nat × α) → Nat → α → List (Nat × α)
  | [], a, v => if v = d then [] else [(a, v)]
  | (k, w) :: m, a, v =>
    if a < k then (if v = d then (k, w) :: m else (a, v) :: (k, w) :: m)
    else if a = k then (if v = d then m else (a, v) :: m)
    else (k, w) :: sparsePut d m a v

/-- The canonical form: addresses strictly rising, no entry equal to the default. -/
def sparseWf {α : Type} [DecidableEq α] (d : α) : List (Nat × α) → Bool
  | [] => true
  | (k, v) :: m => decide (v ≠ d) && m.all (fun e => decide (k < e.1)) && sparseWf d m

def Memory.wf (m : Memory) : Bool :=
  sparseWf blankSpot m.spots && sparseWf 0#72 m.upsets && sparseWf (none : Option Format) m.extents

/-! ## Addresses (R94) -/

/-- The number of page buffers. -/
def bufferCount : Nat := 4096

/-- The spots from one row of a buffer to the next. -/
def rowStride : Nat := 2048

/-- The spots of one buffer: 2048 × 1536. -/
def bufferStride : Nat := 3145728

def spotAddress (buffer x y : Nat) : Nat := buffer * bufferStride + y * rowStride + x

/-- The address of the check group that holds a spot: 8 consecutive spots of one row. -/
def groupOf (spot : Nat) : Nat := spot / 8

/-- Whether a spot address lies in the extent of a format in a buffer. -/
def inExtent (f : Format) (buffer a : Nat) : Bool :=
  a / bufferStride == buffer && a % bufferStride / rowStride < f.cellHeight && a % rowStride < f.cellWidth

/-- Whether a check group lies in the extent of a format in a buffer; every Fw is a multiple of 8. -/
def groupInExtent (f : Format) (buffer g : Nat) : Bool := inExtent f buffer (8 * g)

def Memory.spot (m : Memory) (buffer x y : Nat) : Byte := sparseGet blankSpot m.spots (spotAddress buffer x y)

def Memory.extent (m : Memory) (buffer : Nat) : Option Format := sparseGet none m.extents buffer

def Memory.setExtent (m : Memory) (buffer : Nat) (e : Option Format) : Memory :=
  { m with extents := sparsePut none m.extents buffer e }

/-! ## Writing (R99) -/

/-- Writes values at consecutive addresses. -/
def writeRun (spots : List Host.Cell) (a : Nat) : List Byte → List Host.Cell
  | [] => spots
  | v :: vs => writeRun (sparsePut blankSpot spots a v) (a + 1) vs

/-- Writes one spot row of the extent of a format: data and fresh check bits, and the written extent (R99). -/
def Memory.writeRow (m : Memory) (f : Format) (buffer y : Nat) (values : List Byte) : Memory where
  spots := writeRun m.spots (spotAddress buffer 0 y) values
  upsets := m.upsets.filter fun e => !(groupInExtent f buffer e.1 && 8 * e.1 % bufferStride / rowStride == y)
  extents := sparsePut none m.extents buffer (some f)

/-- Writes 255 in every spot of the rows that `margin` selects (R86, R99). -/
def Memory.writeMargins (m : Memory) (f : Format) (buffer : Nat) (margin : Nat → Bool) : Memory :=
  let inside (a : Nat) : Bool := inExtent f buffer a && margin (a % bufferStride / rowStride)
  { m with
    spots := m.spots.filter fun e => !inside e.1
    upsets := m.upsets.filter fun e => !inside (8 * e.1) }

/-! ## Reading through ECC (R101, R102) -/

/-- R101. -/
inductive GroupCondition where | clean | correctable | uncorrectable
  deriving DecidableEq, Repr

/-- The number of a group's 72 stored bits that differ from what was written. -/
def differing (bits : BitVec 72) : Nat := (List.range 72).countP fun i => bits.getLsbD i

/-- R101. -/
def groupCondition (bits : BitVec 72) : GroupCondition :=
  match differing bits with
  | 0 => .clean
  | 1 => .correctable
  | _ => .uncorrectable

/-- R102. -/
inductive ReadOutcome where | clean | corrected | uncorrectable
  deriving DecidableEq, Repr

/-- The check groups of an extent with this condition, counted; a group not listed is clean. -/
def Memory.countGroups (m : Memory) (f : Format) (buffer : Nat) (c : GroupCondition) : Nat :=
  m.upsets.countP fun e => groupInExtent f buffer e.1 && groupCondition e.2 == c

/-- R102. -/
def Memory.readOutcome (m : Memory) (f : Format) (buffer : Nat) : ReadOutcome :=
  if 0 < m.countGroups f buffer .uncorrectable then .uncorrectable
  else if 0 < m.countGroups f buffer .correctable then .corrected
  else .clean

/-- The correctable groups of the extent are written back in corrected form; an uncorrectable one is left (R102). -/
def Memory.writeBack (m : Memory) (f : Format) (buffer : Nat) : Memory :=
  { m with upsets := m.upsets.filter fun e => !(groupInExtent f buffer e.1 && groupCondition e.2 == .correctable) }

/-- The corrected spots of a buffer's extent, addressed from its top-left corner (R102). -/
def Memory.content (m : Memory) (f : Format) (buffer : Nat) : List Host.Cell :=
  (m.spots.filter fun e => inExtent f buffer e.1).map fun e => (e.1 - buffer * bufferStride, e.2)

/-- Whether a spot of a page is clamped (R164): a listed spot, or an unlisted one when some spot is not listed. -/
def pageClamps (d : DriveSettings) (f : Format) (content : List Host.Cell) : Bool :=
  (content.any fun e => clamps d e.2.toNat) ||
    (decide (content.length < f.cellWidth * f.cellHeight) && clamps d blankSpot.toNat)

/-- A stored bit of a group changes (R101). -/
def Memory.upset (m : Memory) (group bit : Nat) : Memory :=
  { m with upsets := sparsePut 0#72 m.upsets group (sparseGet 0#72 m.upsets group ^^^ BitVec.twoPow 72 bit) }

end Sys2Proof.Machine
end

