-- ==== Sys2Proof/Machine/Ops.lean ====
section
/-! DEFINITION. The operations the commands share: contexts and cells, the directory, the queues, the pool, the gate and
the lamp, replies and fences. -/
namespace Sys2Proof.Machine

/-! ## Contexts, lanes and queues -/

/-- The fiche of a context; none while it is FREE. -/
def State.fiche (s : State) (c : CtxId) : Option Fiche := s.composer.contexts.get c

def State.setContext (s : State) (c : CtxId) (x : Option Fiche) : State :=
  { s with composer := { s.composer with contexts := s.composer.contexts.set c.val x } }

def State.modifyFiche (s : State) (c : CtxId) (g : Fiche → Fiche) : State := s.setContext c ((s.fiche c).map g)

def State.lane (s : State) (l : LaneId) : Lane := s.laneTable.lanes.get l

def State.setLane (s : State) (l : LaneId) (x : Lane) : State :=
  { s with laneTable := { s.laneTable with lanes := s.laneTable.lanes.set l.val x } }

def State.setNextSerial (s : State) (l : LaneId) (n : Nat) : State := s.setLane l { s.lane l with nextSerial := n }

/-- The definition of a lane that is defined and enabled (R8). -/
def State.enabledLane (s : State) (l : LaneId) : Option LaneDef := (s.lane l).definition.filter (·.enabled)

def State.queue (s : State) (l : LaneId) : List CtxId := s.composer.queues.get l

def State.setQueue (s : State) (l : LaneId) (q : List CtxId) : State :=
  { s with composer := { s.composer with queues := s.composer.queues.set l.val q } }

def State.anyQueued (s : State) : Bool := (List.finRange 4).any fun l => !(s.queue l).isEmpty

/-- The state of a context as a code, 0 for FREE (R187). -/
def State.contextCode (s : State) (c : CtxId) : Nat := ((s.fiche c).map (·.state.code)).getD 0

/-- The lane's context in COMPOSING (R42). -/
def State.composingContext (s : State) (l : LaneId) : Option CtxId :=
  (List.finRange 8).find? fun c => (s.fiche c).any fun f => f.state == .composing && f.lane == l

/-- The lowest-numbered FREE context (R46). -/
def State.lowestFree (s : State) : Option CtxId := (List.finRange 8).find? fun c => (s.fiche c).isNone

/-! ## Cell maps -/

def Cell.isFree : Cell → Bool
  | .free => true
  | .index | .occupied _ => false

def Cell.isIndex : Cell → Bool
  | .index => true
  | .free | .occupied _ => false

def Cell.entry : Cell → Option Occupied
  | .occupied o => some o
  | .free | .index => none

/-- The entry of an OCCUPIED cell changed; other cells stay. -/
def Cell.modify (g : Occupied → Occupied) : Cell → Cell
  | .occupied o => .occupied (g o)
  | .free => .free
  | .index => .index

/-- The cell map with each entry rewritten from its linear number and itself. -/
def mapCellsFrom (g : Nat → Cell → Cell) : Nat → List Cell → List Cell
  | _, [] => []
  | i, e :: es => g i e :: mapCellsFrom g (i + 1) es

def mapCells (g : Nat → Cell → Cell) (cells : List Cell) : List Cell := mapCellsFrom g 0 cells

/-- R43: the cell map at opening. -/
def initialCells (f : Format) (k : Fin 4) : List Cell :=
  List.replicate (usableCells f k) .free ++ List.replicate k.val .index

/-- The OCCUPIED entries of a fiche in linear order. -/
def Fiche.entries (f : Fiche) : List Occupied := f.cells.filterMap Cell.entry

def Fiche.countImages (f : Fiche) (i : ImageState) : Nat := f.entries.countP fun o => o.image == i

/-- The buffers a fiche's cells hold (R45). -/
def Fiche.buffers (f : Fiche) : List Nat := f.entries.filterMap (·.buffer)

/-- The OCCUPIED entries of the `length` cells from `first`. -/
def Fiche.entriesOf (f : Fiche) (first length : Nat) : List Occupied :=
  ((f.cells.drop first).take length).filterMap Cell.entry

/-- A newly OCCUPIED entry (R43), for the i-th cell of a run that begins with page q (R53). -/
def newEntry (key : Key) (span : Span) (q i : Nat) : Occupied where
  key := key
  page := q + i / span.cells
  half := match span with
    | .single => .whole
    | .wide => if i % 2 = 0 then .left else .right
  image := .awaiting
  buffer := none
  cropped := false
  saturated := false

/-- Cells `first` on become OCCUPIED by `pages` pages from page q (R53). -/
def occupyRun (cells : List Cell) (key : Key) (span : Span) (first q pages : Nat) : List Cell :=
  mapCells (fun i e => if first ≤ i ∧ i < first + pages * span.cells then .occupied (newEntry key span q (i - first))
    else e) cells

/-- Cells `first` to `first + length − 1` become FREE. -/
def freeRun (cells : List Cell) (first length : Nat) : List Cell :=
  mapCells (fun i e => if first ≤ i ∧ i < first + length then .free else e) cells

/-- The `length` cells from `first` all lie in the first `usable` cells and are all FREE. -/
def runIsFree (cells : List Cell) (usable first length : Nat) : Bool :=
  decide (first + length ≤ usable) && ((cells.drop first).take length).all Cell.isFree

/-- First fit, less its index entry condition (R52): the lowest cell that is a multiple of s and begins a free run. -/
def firstFit (cells : List Cell) (usable length s : Nat) : Option Nat :=
  (List.range usable).find? fun f => f % s == 0 && runIsFree cells usable f length

/-- R52: the fiche has an index entry free. -/
def Fiche.indexEntryFree (f : Fiche) : Bool := f.k.val == 0 || f.indexUsed < indexCapacity f.format f.k

/-- The cell at which the tail of a fiche begins (R54). -/
def tailStart (cells : List Cell) (usable s : Nat) : Nat :=
  let used := ((cells.take usable).zipIdx.filter fun e => !e.1.isFree).map fun e => e.2 + 1
  let start := used.getLast?.getD 0
  (start + s - 1) / s * s

/-- The pages that fit in the tail (R54). -/
def tailPages (cells : List Cell) (usable s : Nat) : Nat := (usable - tailStart cells usable s) / s

/-! ## The directory -/

def State.record (s : State) (key : Key) : Option Record := s.directory.find? fun r => r.key == key

/-- The record put at the position of its key (R18). -/
def insertRecord (r : Record) : List Record → List Record
  | [] => [r]
  | x :: xs => if r.key < x.key then r :: x :: xs else x :: insertRecord r xs

def State.removeRecord (s : State) (key : Key) : State :=
  { s with directory := s.directory.filter fun r => r.key != key }

def State.updateRecord (s : State) (key : Key) (g : Record → Record) : State :=
  { s with directory := s.directory.map fun r => if r.key = key then g r else r }

/-- The cells a part occupies (R20). -/
def RecordPart.length (p : RecordPart) (span : Span) : Nat := p.pages * span.cells

/-- The part that holds a page (R78). -/
def Record.partOf (r : Record) (page : Nat) : Option RecordPart :=
  r.parts.find? fun p => decide (p.firstPage ≤ page ∧ page < p.firstPage + p.pages)

/-- The first cell of a page of a part (R20). -/
def RecordPart.cellOf (p : RecordPart) (span : Span) (page : Nat) : Nat := p.firstCell + (page - p.firstPage) * span.cells

/-- Every part is on a COMPOSING context (R23). -/
def State.allComposing (s : State) (r : Record) : Bool :=
  r.parts.all fun p => (s.fiche p.ctx).any fun f => f.state == .composing

/-- R20. -/
def Record.isSplit (r : Record) : Bool :=
  match r.parts with
  | [p] => decide (p.firstPage ≠ 1 ∨ p.pages < r.pageCount)
  | _ => true

/-! ## The pool of free buffers (R95, R96, R98) -/

def Intake.buffers : Intake → List Nat
  | .receiving _ bs _ _ _ => bs
  | .ready _ | .stalled _ | .discarding _ _ _ => []

/-- The buffers that some cell holds. -/
def State.cellBuffers (s : State) : List Nat :=
  s.composer.contexts.toList.flatMap fun x => (x.map Fiche.buffers).getD []

/-- The buffers whose holder is not FREE. -/
def State.heldBuffers (s : State) : List Nat := s.intake.buffers ++ s.cellBuffers

/-- The free pool, lowest number first (R95, R96). -/
def State.freePool (s : State) : List Nat :=
  (List.range' 0 bufferCount).filter fun b => !s.heldBuffers.contains b

/-- The holder of a buffer (R95). -/
inductive Holder where
  | free
  | intake (position : Half)
  | cell (ctx : CtxId) (cell : Nat)
  deriving DecidableEq, Repr

/-- R95: read from the transfer and the cell maps, where each holding has its one home (DEDUCED, log entry 18). -/
def State.holder (s : State) (buffer : Nat) : Holder :=
  match s.intake.buffers with
  | [b] => if b = buffer then .intake .whole else inCells
  | b :: b' :: _ => if b = buffer then .intake .left else if b' = buffer then .intake .right else inCells
  | [] => inCells
where
  inCells : Holder :=
    ((List.finRange 8).findSome? fun c =>
      (s.fiche c).bind fun f =>
        (f.cells.zipIdx.find? fun e => (e.1.entry.bind (·.buffer)) == some buffer).map fun e =>
          Holder.cell c e.2).getD .free

/-- Takes the s lowest buffers of the pool, their written extents none, and enters RECEIVING (R81, R96). -/
def State.reserve (s : State) (m : Matched) : State :=
  let taken := s.freePool.take m.span.cells
  { s with
    intake := .receiving m taken 0 [] []
    memory := taken.foldl (fun mem b => mem.setExtent b none) s.memory }

/-- Whether the pool holds at least n buffers. -/
def State.poolHas (s : State) (n : Nat) : Bool := (s.freePool.take n).length == n

/-- The stall test that follows each event that returns buffers (R98, DEDUCED, log entry 24). -/
def State.stallTest (s : State) : State :=
  match s.intake with
  | .stalled m => if s.poolHas m.span.cells then s.reserve m else s
  | .ready _ | .receiving _ _ _ _ _ | .discarding _ _ _ => s

/-! ## The gate, the lamp and the curves -/

def minutes (n : Nat) : Nat := 60 * n

/-- R171: a stored period of 0 means 90 minutes. -/
def effectivePeriod (stored : Nat) : Nat := if stored = 0 then 90 else stored

/-- The context under exposure (R154). -/
def GateState.underExposure : GateState → Option CtxId
  | .advance c | .title c | .cells c _ | .index c _ _ | .cut c => some c
  | .idle | .spoil | .stopped => none

/-- The current cell (R154). -/
def GateState.current : GateState → Option Nat
  | .cells _ n | .index _ n _ => some n
  | .idle | .advance _ | .title _ | .cut _ | .spoil | .stopped => none

/-- ADVANCE, TITLE, CELLS, INDEX, CUT or SPOIL. -/
def GateState.busy (g : GateState) : Bool := g.underExposure.isSome || g == .spoil

/-- IDLE or STOPPED. -/
def GateState.atRest (g : GateState) : Bool := g == .idle || g == .stopped

/-- The standby timer as it starts (R170). -/
def Gate.freshStandby (g : Gate) : Option Nat := some (minutes (effectivePeriod g.standbyPeriod))

/-- The gate enters IDLE; the standby timer starts when the lamp is READY (R170). -/
def Gate.enterIdle (g : Gate) : Gate :=
  { g with state := .idle, step := none, standby := if g.lamp = .ready then g.freshStandby else none }

/-- The gate enters a state other than IDLE with a step in flight or none; the standby timer stops (R170). -/
def Gate.enter (g : Gate) (state : GateState) (step : Option Step) : Gate :=
  { g with state := state, step := step, standby := none }

/-- The lamp enters another state: the warm-up timer runs in WARMING, the standby timer in READY while the gate is IDLE
(R168, R170). -/
def Gate.lampTo (g : Gate) (l : LampState) : Gate :=
  { g with
    lamp := l
    warmUp := if l = .warming then some 120 else none
    standby := if l = .ready ∧ g.state = .idle then g.freshStandby else none }

/-- A flagged pending copy becomes the active copy (R167). -/
def Curve.activate (c : Curve) : Curve :=
  if c.pendingFlag then { c with active := c.pendingCopy, pendingFlag := false } else c

def Gate.activateCurves (g : Gate) : Gate := { g with curves := g.curves.map Curve.activate }

/-- A flagged pending table becomes the active table and the pointer 0 (R143). -/
def Arbiter.activate (a : Arbiter) : Arbiter :=
  if a.pendingFlag then { a with active := a.pendingTable, pointer := 0, pendingFlag := false } else a

/-! ## What every event ends with -/

/-- R148: a film count of 0 meeting a queued fiche. -/
def State.filmOutCondition (s : State) : Bool := s.gate.film == 0 && s.anyQueued

/-- R148: FILM_OUT is set at the event at which its condition begins. -/
def State.evalFilmOut (before after : State) : State :=
  if after.filmOutCondition && !before.filmOutCondition then after.setFlag filmOutBit else after

/-- R170: a lamp in STANDBY wakes when the gate is IDLE and a fiche is queued. -/
def State.wakeLamp (s : State) : State :=
  if s.gate.lamp = .standby ∧ s.gate.state = .idle ∧ s.anyQueued then { s with gate := s.gate.lampTo .warming } else s

/-- The end of an event that may change the queues, the film count, the lamp or the gate (DEDUCED, log entry 25). -/
def State.conclude (before after : State) : State := (before.evalFilmOut after).wakeLamp

/-! ## Lane queues and the end of composition -/

/-- The context becomes QUEUED, its timer stopped, at the tail of its lane's queue (R128, R129). -/
def State.queueFiche (s : State) (c : CtxId) : State :=
  match s.fiche c with
  | some f => (s.setContext c (some { f with state := .queued, timer := none })).setQueue f.lane (s.queue f.lane ++ [c])
  | none => s

/-- The context becomes QUEUED at the head of its lane's queue, cells done 0 (R71, R176). -/
def State.putBack (s : State) (c : CtxId) : State :=
  match s.fiche c with
  | some f => (s.setContext c (some { f with state := .queued, cellsDone := 0 })).setQueue f.lane (c :: s.queue f.lane)
  | none => s

def Occupied.giveUp (o : Occupied) : Occupied := if o.image = .awaiting then { o with image := .missing } else o

/-- The image wait of a context ends with pages still awaited (R129). -/
def State.expireImageWait (s : State) (c : CtxId) : State :=
  match s.fiche c with
  | some f =>
    let s := s.setContext c (some { f with cells := f.cells.map (Cell.modify Occupied.giveUp) })
    let s := s.setLaneFlag f.lane .missing
    let s := s.withCounters fun k =>
      { k with missingPlaceholders := saturate k.missingPlaceholders (f.countImages .awaiting) }
    s.queueFiche c
  | none => s

/-- The completion test of a CLOSING context (R90, R128). -/
def State.completeIfDone (s : State) (c : CtxId) : State :=
  match s.fiche c with
  | some f => if f.state = .closing ∧ f.countImages .awaiting = 0 then s.queueFiche c else s
  | none => s

/-- A COMPOSING fiche that carries a document leaves composition (R126). -/
def State.closeFiche (s : State) (c : CtxId) (cause : CloseCause) : State :=
  match s.fiche c with
  | some f =>
    let s := s.setContext c (some { f with state := .closing, cause := some cause, timer := some f.imageWait })
    if f.countImages .awaiting = 0 then s.queueFiche c
    else if f.imageWait = 0 then s.expireImageWait c
    else s
  | none => s

/-- A COMPOSING fiche that carries no document is freed and its serial handed back (R125). -/
def State.freeEmptyFiche (s : State) (c : CtxId) : State :=
  match s.fiche c with
  | some f => (s.setContext c none).setNextSerial f.lane f.serial
  | none => s

/-! ## Opening a fiche and placing a part -/

/-- The fiche a lane opens (R46, R8); `titles` are the lines and spacing that OPEN FICHE carries. -/
def newFiche (l : LaneId) (d : LaneDef) (serial : Nat) (titles : Option (List TitleLine × Nat)) : Fiche where
  state := .composing
  lane := l
  serial := serial
  format := d.format
  k := d.k
  split := d.split
  lines := (titles.map (·.1)).getD (d.titleLines serial)
  spacing := (titles.map (·.2)).getD d.spacing
  polarity := d.polarity
  curve := d.curve
  gain := d.gain
  bias := d.bias
  imageWait := d.imageWait
  cells := initialCells d.format d.k
  indexUsed := 0
  cause := none
  timer := none
  attempts := 0
  cellsDone := 0
  corrected := 0
  saturatedCells := 0
  titleClipped := false

/-- R9: 999999 is followed by 0. -/
def nextSerialAfter (serial : Nat) : Nat := (serial + 1) % 1000000

/-- Opens a fiche in context c; the lane's next serial advances (R46, R9). -/
def State.openFiche (s : State) (c : CtxId) (l : LaneId) (d : LaneDef) (titles : Option (List TitleLine × Nat)) : State :=
  let serial := (s.lane l).nextSerial
  (s.setContext c (some (newFiche l d serial titles))).setNextSerial l (nextSerialAfter serial)

/-- Places the pages of a part in its cells; the index entries used rise by one (R53). -/
def State.placePart (s : State) (key : Key) (span : Span) (p : RecordPart) : State :=
  s.modifyFiche p.ctx fun f =>
    { f with cells := occupyRun f.cells key span p.firstCell p.firstPage p.pages, indexUsed := f.indexUsed + 1 }

/-- Removes a record whose parts are all on COMPOSING contexts: its cells become FREE, its index entries return, and
the buffers its cells held are in the pool, since no cell holds them (R37, R67). -/
def State.withdrawRecord (s : State) (r : Record) : State :=
  let s := r.parts.foldl (fun s p => s.modifyFiche p.ctx fun f =>
    { f with cells := freeRun f.cells p.firstCell (p.length r.span), indexUsed := f.indexUsed - 1 }) s
  s.removeRecord r.key

/-- The buffers held by the cells of a record. -/
def State.recordBuffers (s : State) (r : Record) : List Nat :=
  r.parts.flatMap fun p =>
    ((s.fiche p.ctx).map fun f => (f.entriesOf p.firstCell (p.length r.span)).filterMap (·.buffer)).getD []

/-! ## Replies and fences -/

/-- The outstanding requests: waiting, answered but not yet sent, and parked fences (R190). -/
def State.outstanding (s : State) : Nat :=
  s.port.waiting.length + s.port.outbound.countP (fun r => r.completion != .queueFull) + s.port.fences.length

/-- A reply frame joins the tail of the outbound list (R183). -/
def State.post (s : State) (r : Reply) : State :=
  { s with port := { s.port with outbound := s.port.outbound ++ [r] } }

/-- R137: settles a context in a fence that holds it unsettled. -/
def PendingFence.settle (c : CtxId) (o : FenceOutcome) (f : PendingFence) : PendingFence :=
  { f with members := f.members.map fun m => if m.ctx = c ∧ m.outcome = none then { m with outcome := some o } else m }

def PendingFence.settled (f : PendingFence) : Bool := f.members.all fun m => m.outcome.isSome

def PendingFence.notExposed (f : PendingFence) : Nat := f.members.countP fun m => m.outcome == some .notExposed

/-- The reply of a settled fence (R138). The member count is sent once (DEDUCED, log entry 17), and the fence outcome is one
byte (DEDUCED, log entry 32). -/
def PendingFence.reply (f : PendingFence) : Reply :=
  ⟨f.code, f.sequence, .ok,
    f.tag :: bytesOf 1 f.members.length ++ bytesOf 1 f.notExposed ++ f.members.flatMap fun m =>
      bytesOf 1 m.ctx.val ++ bytesOf 3 m.serial ++ bytesOf 1 ((m.outcome.map FenceOutcome.code).getD 0)⟩

/-- The reply of a fence that a RESET request ends (R139). -/
def PendingFence.abortedReply (f : PendingFence) : Reply :=
  ⟨f.code, f.sequence, .aborted,
    f.tag :: bytesOf 1 f.members.length ++ bytesOf 1 (f.members.countP fun m => m.outcome.isSome)⟩

/-- A context enters EXPOSED or FAILED: it settles in every pending fence, and each fence whose last member that settles
is answered, in the order in which they were parked (R137, R138). -/
def State.settleFences (s : State) (c : CtxId) (o : FenceOutcome) : State :=
  let fences := s.port.fences.map (PendingFence.settle c o)
  { s with port := { s.port with
      fences := fences.filter fun f => !f.settled
      outbound := s.port.outbound ++ (fences.filter PendingFence.settled).map PendingFence.reply } }

/-! ## Executing a request -/

/-- What a request answers: nothing yet for a FENCE that is parked (R192). -/
abbrev Answer := Option (Completion × List Byte)

def State.answer (s : State) (f : Frame) : Answer → State
  | some (completion, body) => s.post ⟨f.byte 0, f.byte 1, completion, body⟩
  | none => s

/-- The body of the reply to a request that the framing checks refuse: a refused LAMP gives the lamp state (R172, R189) in
one byte (DEDUCED, log entry 32), any other an empty body. A frame is taken as a LAMP by its code byte, also where check 1 of
R193 refuses it before the code is examined (DEDUCED, log entry 16). -/
def State.misframedBody (s : State) (f : Frame) : List Byte :=
  if rowOfCode (f.byte 0) = .lampOn then bytesOf 1 s.gate.lamp.code else []

/-- The execution of the oldest waiting request by the row it belongs to (R192): the framing checks come first (R193), the
reply joins the outbound list, and the request leaves the queue. Where the oldest request belongs to another row, or none
waits, the row's event does not happen (DEDUCED, log entry 1). While the reset line is asserted no request is executed (R208). -/
def State.execute (s : State) (row : RequestRow) (act : Frame → State → State × Answer) :
    Host.Outcome State Fault Refusal :=
  match s.port.waiting with
  | [] => .next s
  | f :: rest =>
    if s.lines.resetLine ∨ f.row ≠ row then .next s
    else
      let (t, answer) := match f.framingRefusal with
        | some code => (s, some (code, s.misframedBody f))
        | none => act f s
      let t := t.answer f answer
      .next { t with port := { t.port with waiting := rest } }

/-- A refusal with an empty body, which changes nothing (R189, R195). -/
def State.refuse (s : State) (code : Completion) : State × Answer := (s, some (code, []))

/-! ## Interruption of an exposure (R174 to R176) -/

/-- The context under exposure after a lamp fault, jam or door-open event (R176). -/
def State.interruptFiche (s : State) (c : CtxId) : State :=
  match s.fiche c with
  | some f =>
    if f.attempts + 1 < 3 then (s.modifyFiche c fun f => { f with attempts := f.attempts + 1 }).putBack c
    else
      let s := s.setContext c (some { f with state := .failed, attempts := f.attempts + 1, cellsDone := 0 })
      (s.setLaneFlag f.lane .failed).settleFences c .notExposed
  | none => s

def State.countSpoiled (s : State) : State :=
  s.withCounters fun k => { k with spoiledSheets := saturate k.spoiledSheets 1 }

/-! ## Time -/

/-- A running timer one second later; its reaching 0 is an event of its own (DESIGN CHOICE, log entry 3). -/
def countDown : Option Nat → Option Nat
  | some (n + 2) => some (n + 1)
  | t => t

/-- One second in which no event is taken (R128, R168, R170). -/
def State.second (s : State) : State :=
  { s with
    composer := { s.composer with
      contexts := s.composer.contexts.map fun x => x.map fun f => { f with timer := countDown f.timer } }
    gate := { s.gate with warmUp := countDown s.gate.warmUp, standby := countDown s.gate.standby } }

end Sys2Proof.Machine
end

