-- ==== Sys2Proof/Machine/Arbiter.lean ====
section
/-! DEFINITION. The Exposure Arbiter's commands: LOAD ARBITRATION and the grant decision (chapter 8). -/
namespace Sys2Proof.Machine

/-! ## LOAD ARBITRATION -/

/-- The lane a phase value names; 4 to 255 is a skip (R140). -/
def phaseLane (v : Byte) : Option LaneId := laneOfNat v.toNat
where
  laneOfNat (n : Nat) : Option LaneId := if h : n < 4 then some ⟨n, h⟩ else none

def loadArbitration (f : Frame) (s : State) : State × Answer :=
  let table : Vector Byte 32 := Vector.ofFn fun p => f.body.getD p.val 0
  let phases (l : Option LaneId) : List Byte := bytesOf 1 (table.toList.countP fun v => phaseLane v == l)
  ({ s with arbiter := { s.arbiter with pendingTable := table, pendingFlag := true } },
    some (.ok, bit s.arbiter.pendingFlag ++ (List.finRange 4).flatMap (fun l => phases (some l)) ++ phases none))

/-- LOAD ARBITRATION (R149, R150). -/
def execLoadArbitration (s : State) : Host.Outcome State Fault Refusal := s.execute .loadArbitration loadArbitration

/-! ## The grant decision -/

/-- R141. -/
def State.grantDue (s : State) : Bool :=
  s.gate.state == .idle && s.gate.lamp == .ready && decide (1 ≤ s.gate.film) && s.anyQueued

/-- The first phase from the pointer on that names a lane with a queued fiche (R144). -/
def State.scan (s : State) (a : Arbiter) : Option (Fin 32 × LaneId) :=
  (List.finRange 32).findSome? fun i =>
    let phase := a.pointer + i
    (phaseLane (a.active.get phase)).bind fun l => if (s.queue l).isEmpty then none else some (phase, l)

/-- The first non-empty queue after the last lane granted (R145). -/
def State.fallback (s : State) (a : Arbiter) : Option LaneId :=
  [a.lastLane + 1, a.lastLane + 2, a.lastLane + 3, a.lastLane].find? fun l => !(s.queue l).isEmpty

/-- The lane granted and the phase pointer after the grant (R144, R145). -/
def State.choice (s : State) (a : Arbiter) : Option (LaneId × Fin 32) :=
  match s.scan a with
  | some (phase, l) => some (l, phase + 1)
  | none => (s.fallback a).map fun l => (l, a.pointer)

/-- The grant of a lane's head fiche (R146). -/
def State.grant (s : State) (l : LaneId) (c : CtxId) (rest : List CtxId) (a : Arbiter) : State :=
  let s := (s.setQueue l rest).modifyFiche c fun f => { f with state := .exposing, cellsDone := 0 }
  { s with
    arbiter := a
    gate := { s.gate.enter (.advance c) (some .advance) with film := s.gate.film - 1 } }

/-- GRANT_DECISION (R141 to R146): a decision whose conditions no longer hold changes nothing. -/
def execGrantDecision (s : State) : Host.Outcome State Fault Refusal :=
  if s.lines.resetLine ∨ !s.grantDue then .next s
  else
    let a := s.arbiter.activate
    match s.choice a with
    | none => .next s
    | some (l, pointer) =>
      match s.queue l with
      | [] => .next s
      | c :: rest => .next (s.conclude (s.grant l c rest { a with pointer := pointer, lastLane := l }))

end Sys2Proof.Machine
end

