-- ==== Sys2Proof/Machine/Directory.lean ====
section
/-! DEFINITION. The Placement Directory's requests: LOOKUP, FIND NEXT, AMEND, WITHDRAW, PURGE (chapter 2, and the
page-count half of AMEND in chapter 3). -/
namespace Sys2Proof.Machine

/-! ## What is derived (R25 to R27) -/

/-- R25. -/
inductive RecordState where | placed | frozen | exposed
  deriving DecidableEq, Repr

def RecordState.code : RecordState → Nat
  | .placed => 0 | .frozen => 1 | .exposed => 2

/-- Whether a part lies on a context in this state. -/
def State.partOn (s : State) (p : RecordPart) (x : FicheState) : Bool := (s.fiche p.ctx).any fun f => f.state == x

/-- The state of the least advanced part (R25). -/
def State.recordState (s : State) (r : Record) : RecordState :=
  if r.parts.any fun p => s.partOn p .composing then .placed
  else if r.parts.all fun p => s.partOn p .exposed then .exposed
  else .frozen

/-- The OCCUPIED entries of a part's cells. -/
def State.partEntries (s : State) (r : Record) (p : RecordPart) : List Occupied :=
  ((s.fiche p.ctx).map fun f => f.entriesOf p.firstCell (p.length r.span)).getD []

/-- Some page of the part has a cell in this image state (R26). -/
def State.partHas (s : State) (r : Record) (p : RecordPart) (i : ImageState) : Bool :=
  (s.partEntries r p).any fun o => o.image == i

/-- The four flags of a part, summed (R26, R187). -/
def State.partFlags (s : State) (r : Record) (p : RecordPart) : Nat :=
  let weigh (b : Bool) (n : Nat) : Nat := if b then n else 0
  weigh (s.partHas r p .missing) 1 + weigh (s.partHas r p .damaged) 2 +
    weigh ((s.partEntries r p).any (·.cropped)) 4 + weigh ((s.partEntries r p).any (·.saturated)) 8

/-- The pages of a part whose cells all have image state PRESENT (R26). -/
def State.pagesPresent (s : State) (r : Record) (p : RecordPart) : Nat :=
  (List.range p.pages).countP fun i =>
    ((s.partEntries r p).filter fun o => o.page == p.firstPage + i && o.image == .present).length == r.span.cells

/-- R27. -/
def Record.pagesLost (r : Record) : Bool := (r.parts.map (·.pages)).sum + r.released < r.pageCount

/-! ## Reporting a record (R28) -/

/-- The format of a context's fiche; a FREE context has none, and no part lies on one (DESIGN CHOICE, log entry 19). -/
def State.formatOf (s : State) (c : CtxId) : Format := ((s.fiche c).map (·.format)).getD .g1

/-- A cell address as the link prints it (R3, R189). -/
def printedBytes (f : Format) (cell : Nat) : List Byte := textBytes (printedCell f cell)

/-- A part of a record (R28). R187 gives the code of the part flags and no width; they are one byte (DEDUCED, log entry 32). -/
def State.partBytes (s : State) (r : Record) (p : RecordPart) : List Byte :=
  bytesOf 1 p.ctx.val ++ bytesOf 3 p.serial ++ bytesOf 2 p.firstCell ++ printedBytes (s.formatOf p.ctx) p.firstCell ++
  bytesOf 1 p.firstPage ++ bytesOf 2 p.pages ++ bytesOf 1 (s.partFlags r p) ++ bytesOf 2 (s.pagesPresent r p) ++
  mayBeAbsent 2 (((s.fiche p.ctx).filter fun f => f.state == .exposing).map fun f => bytesOf 2 f.cellsDone)

/-- A record (R28). R187 gives the code of the record state and of the span and no width; each is one byte (DEDUCED, log
entry 32). -/
def State.recordBytes (s : State) (r : Record) : List Byte :=
  bytesOf 6 r.key.toNat ++ bytesOf 1 r.cls.val ++ bytesOf 1 r.lane.val ++ bytesOf 1 r.span.code ++
  bytesOf 1 r.pageCount ++ bytesOf 2 r.revision.toNat ++ bytesOf 2 r.released ++
  bytesOf 1 (s.recordState r).code ++ bit r.pagesLost ++ bit r.isSplit ++
  bytesOf 1 r.parts.length ++ r.parts.flatMap (s.partBytes r)

/-! ## LOOKUP -/

/-- The greatest key held below a key (R29). -/
def State.predecessor (s : State) (key : Key) : Option Key :=
  ((s.directory.filter fun r => decide (r.key < key)).getLast?).map (·.key)

/-- The least key held above a key (R29). -/
def State.successor (s : State) (key : Key) : Option Key :=
  (s.directory.find? fun r => decide (key < r.key)).map (·.key)

/-- Where an absent key would stand (R29). R187 gives the code of the LOOKUP position and no width; it is one byte (DEDUCED,
log entry 32). -/
def State.positionBytes (s : State) (key : Key) : List Byte :=
  let below := s.predecessor key
  let above := s.successor key
  let position := match below, above with
    | none, none => 0
    | none, some _ => 1
    | some _, none => 2
    | some _, some _ => 3
  let keyBytes (k : Option Key) : List Byte := mayBeAbsent 6 (k.map fun k => bytesOf 6 k.toNat)
  bytesOf 1 position ++ keyBytes below ++ keyBytes above

def lookup (f : Frame) (s : State) : State × Answer :=
  let key := fieldKey f.body 0
  match s.record key with
  | some r => (s, some (.ok, s.recordBytes r))
  | none => (s, some (.notFound, s.positionBytes key))

/-- LOOKUP (R28, R29). -/
def execLookup (s : State) : Host.Outcome State Fault Refusal := s.execute .lookup lookup

/-! ## FIND NEXT -/

/-- A lane filter: 0 to 3 a lane, FFh absent (R187); `none` is out of range. -/
def laneFilterOf (n : Nat) : Option (Option LaneId) :=
  if n = 255 then some none else (laneOf n).map some

/-- Whether a state set names a record state (R30, R187). -/
def stateSetNames (set : Nat) (x : RecordState) : Bool := set.testBit x.code

def findNext (f : Frame) (s : State) : State × Answer :=
  let key := fieldKey f.body 0
  let set := field f.body 7 1
  match laneFilterOf (field f.body 6 1) with
  | none => s.refuse .malformed
  | some lane =>
    if set = 0 ∨ 7 < set then s.refuse .malformed
    else
      match s.directory.find? fun r => decide (key < r.key) && lane.all (· == r.lane) &&
          stateSetNames set (s.recordState r) with
      | some r => (s, some (.ok, s.recordBytes r))
      | none => s.refuse .notFound

/-- FIND NEXT (R30, R31). -/
def execFindNext (s : State) : Host.Outcome State Fault Refusal := s.execute .findNext findNext

/-! ## Conditions (R32) -/

/-- A test set that names only LESS, GREATER and EQUAL. -/
def testSetValid (tests : Nat) : Bool := tests ≤ 7

/-- R32: no test named, or some named test holds. -/
def conditionHolds (current expected : BitVec 16) (tests : Nat) : Bool :=
  tests == 0 || (tests.testBit 0 && decide (current < expected)) || (tests.testBit 1 && decide (expected < current)) ||
    (tests.testBit 2 && current == expected)

/-- A CONDITION refusal carries the current revision (R32). -/
def State.refuseCondition (s : State) (r : Record) : State × Answer :=
  (s, some (.condition, bytesOf 2 r.revision.toNat))

/-! ## AMEND -/

/-- How a new page count is applied to a record's one part on its context (R61 to R64): the new cell map and first cell;
`none` is NO_ROOM (R65). -/
def resize (f : Fiche) (r : Record) (p : RecordPart) (m : Nat) : Option (List Cell × Nat) :=
  let s := r.span.cells
  let usable := usableCells f.format f.k
  let n := r.pageCount
  if m ≤ n then some (freeRun f.cells (p.firstCell + m * s) ((n - m) * s), p.firstCell)
  else if runIsFree f.cells usable (p.firstCell + n * s) ((m - n) * s) then
    some (occupyRun f.cells r.key r.span (p.firstCell + n * s) (n + 1) (m - n), p.firstCell)
  else
    let run := (f.cells.drop p.firstCell).take (n * s)
    let cleared := freeRun f.cells p.firstCell (n * s)
    (firstFit cleared usable (m * s) s).map fun g =>
      let grown := occupyRun cleared r.key r.span (g + n * s) (n + 1) (m - n)
      (mapCells (fun i e => if g ≤ i ∧ i < g + n * s then run.getD (i - g) e else e) grown, g)

/-- The cells of a record take its new key (R34). -/
def rekeyCells (old new : Key) (cells : List Cell) : List Cell :=
  cells.map (Cell.modify fun o => if o.key = old then { o with key := new } else o)

/-- The record under a new key, at the position of that key (R34). -/
def State.rekey (s : State) (r : Record) (new : Key) : State :=
  let s := r.parts.foldl (fun s p => s.modifyFiche p.ctx fun f => { f with cells := rekeyCells r.key new f.cells }) s
  let s := s.removeRecord r.key
  { s with directory := insertRecord { r with key := new } s.directory }

/-- The record with its new page count, if one is carried (R61). -/
def State.applyPageCount (s : State) (r : Record) (count : Option Nat) : Option (State × Record) :=
  match count, r.parts with
  | some m, p :: rest =>
    if m = r.pageCount then some (s, r)
    else (s.fiche p.ctx).bind fun f => (resize f r p m).map fun (cells, first) =>
      let r' := { r with pageCount := m, parts := { p with firstCell := first, pages := m } :: rest }
      ((s.setContext p.ctx (some { f with cells := cells })).updateRecord r.key fun _ => r', r')
  | _, _ => some (s, r)

def amend (f : Frame) (s : State) : State × Answer :=
  let key := fieldKey f.body 0
  let changes := field f.body 6 1
  let newKey := if changes.testBit 0 then some (fieldKey f.body 7) else none
  let count := if changes.testBit 1 then some (field f.body 13 1) else none
  let expected : BitVec 16 := BitVec.ofNat 16 (field f.body 14 2)
  let tests := field f.body 16 1
  if changes = 0 ∨ 3 < changes ∨ count.any (fun m => decide (m = 0 ∨ 64 < m)) ∨ !testSetValid tests then
    s.refuse .malformed
  else
    match s.record key with
    | none => s.refuse .notFound
    | some r =>
      if !s.allComposing r then s.refuse .frozen
      else if !conditionHolds r.revision expected tests then s.refuseCondition r
      else if newKey.any (fun k => k != key && (s.record k).isSome) then s.refuse .duplicate
      else if count.any (fun m => m != r.pageCount) && r.isSplit then s.refuse .splitFixed
      else
        match s.applyPageCount r count with
        | none => s.refuse .noRoom
        | some (t, r) =>
          let k := newKey.getD key
          let t := (if newKey.isSome then t.rekey r k else t).updateRecord k fun r => { r with revision := r.revision + 1 }
          (t.stallTest, some (.ok, bytesOf 6 k.toNat ++ bytesOf 1 r.pageCount ++
            bytesOf 2 (r.revision + 1).toNat ++ bytesOf 2 ((r.parts.head?.map (·.firstCell)).getD 0)))

/-- AMEND (R33 to R35, R61 to R66). -/
def execAmend (s : State) : Host.Outcome State Fault Refusal := s.execute .amend amend

/-! ## WITHDRAW and PURGE -/

/-- The cells that a record's parts occupy (R37). -/
def Record.cellCount (r : Record) : Nat := (r.parts.map fun p => p.length r.span).sum

def withdraw (f : Frame) (s : State) : State × Answer :=
  let key := fieldKey f.body 0
  let expected : BitVec 16 := BitVec.ofNat 16 (field f.body 6 2)
  let tests := field f.body 8 1
  if !testSetValid tests then s.refuse .malformed
  else
    match s.record key with
    | none => s.refuse .notFound
    | some r =>
      if !s.allComposing r then s.refuse .frozen
      else if !conditionHolds r.revision expected tests then s.refuseCondition r
      else
        ((s.withdrawRecord r).stallTest, some (.ok, bytesOf 6 key.toNat ++ bytesOf 2 r.revision.toNat ++
          bytesOf 2 r.cellCount ++ bytesOf 2 (s.recordBuffers r).length))

/-- WITHDRAW (R36, R37). -/
def execWithdraw (s : State) : Host.Outcome State Fault Refusal := s.execute .withdraw withdraw

/-- R38: the key agrees with the value at every bit the mask has set, and the lane passes the filter. -/
def purgeSelects (value mask : Key) (lane : Option LaneId) (r : Record) : Bool :=
  (r.key &&& mask) == (value &&& mask) && lane.all (· == r.lane)

def purge (f : Frame) (s : State) : State × Answer :=
  match laneFilterOf (field f.body 12 1) with
  | none => s.refuse .malformed
  | some lane =>
    let selected := s.directory.filter (purgeSelects (fieldKey f.body 0) (fieldKey f.body 6) lane)
    let (withdrawn, skipped) := selected.partition s.allComposing
    let t := withdrawn.foldl (fun t r => t.withdrawRecord r) s
    (t.stallTest, some (.ok, bytesOf 2 withdrawn.length ++ bytesOf 2 skipped.length))

/-- PURGE (R38, R39). -/
def execPurge (s : State) : Host.Outcome State Fault Refusal := s.execute .purge purge

end Sys2Proof.Machine
end

