-- ==== Sys2Proof/Machine/LaneTable.lean ====
section
/-! DEFINITION. The Lane Table's requests: DEFINE LANE and MAP CLASS (chapter 1). -/
namespace Sys2Proof.Machine

/-! ## DEFINE LANE -/

/-- The serial position fields: 0 names none and leaves the column unexamined (R188); `none` is out of range (R12). -/
def serialPositionOf (line column : Nat) : Option (Option SerialPosition) :=
  match line with
  | 0 => some none
  | 1 => if column ≤ 39 then some (some ⟨.line1, column⟩) else none
  | 2 => if column ≤ 39 then some (some ⟨.line2, column⟩) else none
  | _ => none

/-- The serial action: KEEP, or SET with its value, at most 999999 (R11). -/
def serialActionOf (action value : Nat) : Option (Option Nat) :=
  match action with
  | 0 => some none
  | 1 => if value ≤ 999999 then some (some value) else none
  | _ => none

/-- G brought into range (R13). -/
def clampGain (g : Nat) : Nat := max 128 (min 4095 g)

/-- B brought into range (R13). -/
def clampBias (b : Nat) : Nat := min 2047 b

/-- The spacing brought into range (R13, R48). -/
def clampSpacing (n : Nat) : Nat := min 15 n

/-- The carried characters of both title lines. -/
def carriedTitles (body : List Byte) : Text :=
  fieldText body 23 (field body 5 1) ++ fieldText body (23 + field body 5 1) (field body 7 1)

/-- How many characters of a text are replaced by "?" (R13, R48). -/
def replacedCount (t : Text) : Nat := t.countP fun c => printable c != c

/-- The request's fields, checked by R11 and R12 and adjusted by R13; `none` is MALFORMED. -/
def laneDefOf (body : List Byte) : Option (LaneId × Option Nat × LaneDef) := do
  let lane ← laneOf (field body 0 1)
  let enabled ← yesNoOf (field body 1 1)
  let format ← formatOf (field body 2 1)
  let k ← laneOf (field body 3 1)
  let split ← splitOf (field body 4 1)
  let length1 := field body 5 1
  let size1 ← titleSizeOf (field body 6 1)
  let length2 := field body 7 1
  let size2 ← titleSizeOf (field body 8 1)
  if 40 < length1 ∨ 40 < length2 then none
  let position ← serialPositionOf (field body 10 1) (field body 11 1)
  let action ← serialActionOf (field body 12 1) (field body 13 3)
  let polarity ← polarityOf (field body 16 1)
  let curve ← laneOf (field body 17 1)
  some (lane, action,
    { enabled := enabled
      format := format
      k := k
      split := split
      line1 := ⟨(fieldText body 23 length1).map printable, size1⟩
      line2 := ⟨(fieldText body (23 + length1) length2).map printable, size2⟩
      spacing := clampSpacing (field body 9 1)
      serialPosition := position
      polarity := polarity
      curve := curve
      gain := clampGain (field body 18 2)
      bias := clampBias (field body 20 2)
      imageWait := field body 22 1 })

/-- R14: disabling a lane with a live context, or SET while it composes. -/
def State.laneBusy (s : State) (l : LaneId) (enabled : Bool) (setsSerial : Bool) : Bool :=
  (!enabled && (List.finRange 8).any fun c => (s.fiche c).any fun f => f.lane == l) ||
    (setsSerial && (s.composingContext l).isSome)

/-- The definition in the layout of R188, the serial value bytes carrying the next serial. -/
def laneDefBytes (l : LaneId) (d : LaneDef) (column : Byte) (nextSerial : Nat) : List Byte :=
  bytesOf 1 l.val ++ bit d.enabled ++ bytesOf 1 d.format.code ++ bytesOf 1 d.k.val ++ bytesOf 1 d.split.code ++
  bytesOf 1 d.line1.text.length ++ bytesOf 1 d.line1.size.code ++
  bytesOf 1 d.line2.text.length ++ bytesOf 1 d.line2.size.code ++ bytesOf 1 d.spacing ++
  bytesOf 1 (match d.serialPosition with
    | none => 0
    | some p => match p.line with
      | .line1 => 1
      | .line2 => 2) ++
  [column] ++ bytesOf 1 0 ++ bytesOf 3 nextSerial ++ bytesOf 1 d.polarity.code ++ bytesOf 1 d.curve.val ++
  bytesOf 2 d.gain ++ bytesOf 2 d.bias ++ bytesOf 1 d.imageWait ++ textBytes d.line1.text ++ textBytes d.line2.text

/-- The adjustment indications (R15, R188). -/
def adjustmentBytes (body : List Byte) : List Byte :=
  let g := field body 18 2
  bytesOf 1 (if g < 128 then 1 else if 4095 < g then 2 else 0) ++ bit (decide (2047 < field body 20 2)) ++
    bit (decide (15 < field body 9 1)) ++ bytesOf 1 (replacedCount (carriedTitles body))

/-- The column byte of the reply: the stored column, or, with no serial position stored, a byte the manual does not
state (DESIGN CHOICE, log entry 12). -/
def State.columnByte (s : State) (d : LaneDef) : Byte × State :=
  match d.serialPosition with
  | some p => (BitVec.ofNat 8 p.column, s)
  | none => (Config.freeByte s.free, { s with free := s.free + 1 })

def defineLane (f : Frame) (s : State) : State × Answer :=
  match laneDefOf f.body with
  | none => s.refuse .malformed
  | some (l, action, d) =>
    if s.laneBusy l d.enabled action.isSome then s.refuse .busy
    else
      let next := action.getD (s.lane l).nextSerial
      let (column, t) := (s.setLane l ⟨next, some d⟩).columnByte d
      (t, some (.ok, laneDefBytes l d column next ++ adjustmentBytes f.body))

/-- DEFINE LANE (R11 to R15). -/
def execDefineLane (s : State) : Host.Outcome State Fault Refusal := s.execute .defineLane defineLane

/-! ## MAP CLASS -/

def mapClass (f : Frame) (s : State) : State × Answer :=
  match classOf (field f.body 0 1), laneOf (field f.body 1 1) with
  | some c, some l =>
    if c = 0 ∧ l ≠ 0 then s.refuse .malformed
    else
      ({ s with laneTable := { s.laneTable with classMap := s.laneTable.classMap.set c.val l } },
        some (.ok, bytesOf 1 c.val ++ bytesOf 1 l.val ++ bytesOf 1 (s.laneTable.classMap.get c).val))
  | _, _ => s.refuse .malformed

/-- MAP CLASS (R17). -/
def execMapClass (s : State) : Host.Outcome State Fault Refusal := s.execute .mapClass mapClass

end Sys2Proof.Machine
end

