-- ==== Sys2Proof/Machine/Composer.lean ====
section
/-! DEFINITION. The Fiche Composer's commands: PLACE, OPEN FICHE, READ FICHE (chapter 3), CLOSE, REQUEUE, RELEASE and the
image-wait expiry (chapter 7). -/
namespace Sys2Proof.Machine

/-- A count sent in one byte; how the part sends one above 255 is not stated (DESIGN CHOICE, log entry 13). -/
def State.countByte (s : State) (n : Nat) : List Byte × State :=
  if n < 256 then (bytesOf 1 n, s) else ([Config.freeByte s.free], { s with free := s.free + 1 })

/-! ## OPEN FICHE -/

/-- The title lines an OPEN FICHE carries, with their spacing, the characters replaced by "?" and whether the spacing was
lowered. -/
structure CarriedTitles where
  lines : List TitleLine
  spacing : Nat
  replaced : Nat
  lowered : Bool
  deriving DecidableEq, Repr

/-- The carried line whose length byte stands at an offset (R48). -/
def carriedLine (body : List Byte) (offset : Nat) : Option (TitleLine × Nat) :=
  let length := field body offset 1
  if 40 < length then none
  else (titleSizeOf (field body (offset + 1) 1)).map fun size =>
    let text := fieldText body (offset + 2) length
    (⟨text.map printable, size⟩, replacedCount text)

def carriedSpacing (body : List Byte) (offset : Nat) (lines : List TitleLine) (replaced : Nat) : CarriedTitles :=
  let n := field body offset 1
  ⟨lines, clampSpacing n, replaced, decide (15 < n)⟩

/-- The carried titles; `some none` where the line count is 0, `none` where they are malformed (R48). -/
def carriedTitlesOf (body : List Byte) : Option (Option CarriedTitles) :=
  match field body 1 1 with
  | 0 => some none
  | 1 => (carriedLine body 2).map fun (l, n) => some (carriedSpacing body (4 + l.text.length) [l] n)
  | 2 => (carriedLine body 2).bind fun (l, n) =>
    let second := 4 + l.text.length
    (carriedLine body second).map fun (l', n') =>
      some (carriedSpacing body (second + 2 + l'.text.length) [l, l'] (n + n'))
  | _ => none

/-- The format in the reply is one byte (DEDUCED, log entry 32). -/
def openFiche (f : Frame) (s : State) : State × Answer :=
  match laneOf (field f.body 0 1), carriedTitlesOf f.body with
  | some l, some titles =>
    match s.enabledLane l with
    | none => s.refuse .noLane
    | some d =>
      if (s.composingContext l).isSome then s.refuse .state
      else
        match s.lowestFree with
        | none => s.refuse .noContext
        | some c =>
          let serial := (s.lane l).nextSerial
          (s.openFiche c l d (titles.map fun t => (t.lines, t.spacing)),
            some (.ok, bytesOf 1 c.val ++ bytesOf 3 serial ++ bytesOf 1 d.format.code ++ bytesOf 1 d.k.val ++
              bytesOf 2 (indexCapacity d.format d.k) ++ bytesOf 3 (nextSerialAfter serial) ++
              mayBeAbsent 2 (titles.map fun t => bytesOf 1 t.replaced ++ bit t.lowered)))
  | _, _ => s.refuse .malformed

/-- OPEN FICHE (R46 to R49). -/
def execOpenFiche (s : State) : Host.Outcome State Fault Refusal := s.execute .openFiche openFiche

/-! ## PLACE -/

/-- What a placement did (R60). -/
structure Placement where
  state : State
  parts : List RecordPart
  closed : Option (CtxId × CloseCause)
  discarded : Option (CtxId × Nat)
  opened : Option CtxId
  deriving DecidableEq, Repr

/-- Opens a fiche on the lane in context c and places pages from page q at its cell 0 (R51, R55, R56). -/
def State.placeOnNew (s : State) (c : CtxId) (l : LaneId) (d : LaneDef) (key : Key) (span : Span) (q pages : Nat) :
    State × RecordPart :=
  let p : RecordPart := ⟨c, (s.lane l).nextSerial, 0, q, pages⟩
  ((s.openFiche c l d none).placePart key span p, p)

/-- R51: the lane has no COMPOSING context. -/
def State.placeFresh (s : State) (l : LaneId) (d : LaneDef) (key : Key) (span : Span) (n : Nat) : Option Placement :=
  s.lowestFree.map fun c =>
    let (t, p) := s.placeOnNew c l d key span 1 n
    ⟨t, [p], none, none, some c⟩

/-- R55: pages 1 to t in the tail of the current fiche x, the rest on a new fiche. -/
def State.placeSplit (s : State) (x : CtxId) (f : Fiche) (l : LaneId) (d : LaneDef) (key : Key) (span : Span)
    (n t : Nat) : Option Placement :=
  s.lowestFree.map fun c =>
    let p : RecordPart := ⟨x, f.serial, tailStart f.cells (usableCells f.format f.k) span.cells, 1, t⟩
    let (u, p') := ((s.placePart key span p).closeFiche x .split).placeOnNew c l d key span (t + 1) (n - t)
    ⟨u, [p, p'], some (x, .split), none, some c⟩

/-- R56, first case: the current fiche x is closed FULL. -/
def State.placeAfterFull (s : State) (x : CtxId) (l : LaneId) (d : LaneDef) (key : Key) (span : Span) (n : Nat) :
    Option Placement :=
  s.lowestFree.map fun c =>
    let (u, p) := (s.closeFiche x .full).placeOnNew c l d key span 1 n
    ⟨u, [p], some (x, .full), none, some c⟩

/-- R56, second case: the current fiche x carries no document and is discarded. -/
def State.placeAfterDiscard (s : State) (x : CtxId) (f : Fiche) (l : LaneId) (d : LaneDef) (key : Key) (span : Span)
    (n : Nat) : Option Placement :=
  let u := s.freeEmptyFiche x
  u.lowestFree.map fun c =>
    let (t, p) := u.placeOnNew c l d key span 1 n
    ⟨t, [p], none, some (x, f.serial), some c⟩

/-- Chooses the cells of a document (R51 to R56); `none` is NO_CONTEXT (R57). -/
def State.choosePlace (s : State) (l : LaneId) (d : LaneDef) (key : Key) (span : Span) (n : Nat) : Option Placement :=
  match (s.composingContext l).bind fun x => (s.fiche x).map fun f => (x, f) with
  | none => s.placeFresh l d key span n
  | some (x, f) =>
    let usable := usableCells f.format f.k
    match if f.indexEntryFree then firstFit f.cells usable (n * span.cells) span.cells else none with
    | some g =>
      let p : RecordPart := ⟨x, f.serial, g, 1, n⟩
      some ⟨s.placePart key span p, [p], none, none, none⟩
    | none =>
      let t := tailPages f.cells usable span.cells
      if f.split = .allow ∧ 1 ≤ t ∧ f.indexEntryFree then s.placeSplit x f l d key span n t
      else if f.indexUsed ≠ 0 then s.placeAfterFull x l d key span n
      else s.placeAfterDiscard x f l d key span n

/-- The serial of a context's fiche. -/
def State.serialOf (s : State) (c : CtxId) : Nat := ((s.fiche c).map (·.serial)).getD 0

def ctxSerialBytes (c : CtxId) (serial : Nat) : List Byte := bytesOf 1 c.val ++ bytesOf 3 serial

/-- The OK reply of PLACE (R60). The close cause is one byte (DEDUCED, log entry 32). -/
def Placement.bytes (p : Placement) (key : Key) (l : LaneId) : List Byte :=
  let s := p.state
  bytesOf 6 key.toNat ++ bytesOf 1 l.val ++ bytesOf 2 0 ++ bytesOf 1 p.parts.length ++
  (p.parts.flatMap fun q => ctxSerialBytes q.ctx q.serial ++ bytesOf 2 q.firstCell ++
    printedBytes (s.formatOf q.ctx) q.firstCell ++ bytesOf 1 q.firstPage ++ bytesOf 2 q.pages) ++
  mayBeAbsent 6 (p.closed.map fun (c, cause) => ctxSerialBytes c (s.serialOf c) ++ bytesOf 1 cause.code ++
    bit ((s.fiche c).any fun f => f.state == .queued)) ++
  mayBeAbsent 4 (p.discarded.map fun (c, serial) => ctxSerialBytes c serial) ++
  mayBeAbsent 4 (p.opened.map fun c => ctxSerialBytes c (s.serialOf c))

def place (f : Frame) (s : State) : State × Answer :=
  let key := fieldKey f.body 0
  let n := field f.body 7 1
  match classOf (field f.body 6 1), spanOf (field f.body 8 1) with
  | some cls, some span =>
    if n = 0 then s.refuse .malformed
    else
      let l := s.laneTable.classMap.get cls
      match s.enabledLane l with
      | none => s.refuse .noLane
      | some d =>
        if (s.record key).isSome then s.refuse .duplicate
        else if 1024 ≤ s.directory.length then s.refuse .directoryFull
        else if 64 < n ∨ usableCells d.format d.k < n * span.cells then s.refuse .tooLarge
        else
          match s.choosePlace l d key span n with
          | none => s.refuse .noContext
          | some p =>
            let r : Record := ⟨key, cls, l, span, n, 0, p.parts, 0⟩
            (s.conclude { p.state with directory := insertRecord r p.state.directory }, some (.ok, p.bytes key l))
  | _, _ => s.refuse .malformed

/-- PLACE (R50 to R60). -/
def execPlace (s : State) : Host.Outcome State Fault Refusal := s.execute .place place

/-! ## READ FICHE -/

/-- R69. -/
def Cell.bytes : Cell → List Byte
  | .free => [0]
  | .index => [1]
  | .occupied o =>
    [2] ++ bytesOf 6 o.key.toNat ++ bytesOf 1 o.page ++ bytesOf 1 o.half.code ++ bytesOf 1 o.image.code ++
      mayBeAbsent 2 (o.buffer.map (bytesOf 2)) ++ bit o.cropped ++ bit o.saturated

/-- The summary of R68; `parts` is the byte of the number of parts on the context. The context state, format, split policy,
polarity and close cause are one byte each (DEDUCED, log entry 32). -/
def Fiche.summaryBytes (f : Fiche) (parts : List Byte) : List Byte :=
  bytesOf 1 f.state.code ++ bytesOf 1 f.lane.val ++ bytesOf 3 f.serial ++
  bytesOf 1 f.format.code ++ bytesOf 1 f.k.val ++ bytesOf 2 (indexCapacity f.format f.k) ++ bytesOf 2 f.indexUsed ++
  bytesOf 1 f.split.code ++ bytesOf 1 f.polarity.code ++ bytesOf 1 f.curve.val ++ bytesOf 2 f.gain ++ bytesOf 2 f.bias ++
  bytesOf 1 f.imageWait ++
  bytesOf 1 f.lines.length ++ f.lines.flatMap TitleLine.bytes ++ bytesOf 1 f.spacing ++
  bit f.titleClipped ++
  mayBeAbsent 1 (if f.state = .composing then none else f.cause.map fun c => bytesOf 1 c.code) ++
  mayBeAbsent 1 (if f.state = .closing then f.timer.map (bytesOf 1) else none) ++
  bytesOf 1 f.attempts ++
  mayBeAbsent 2 (if f.state = .exposing then some (bytesOf 2 f.cellsDone) else none) ++
  bytesOf 2 f.corrected ++ bytesOf 2 f.saturatedCells ++
  parts ++
  bytesOf 2 (f.cells.countP Cell.isFree) ++ bytesOf 2 f.entries.length ++ bytesOf 2 (f.cells.countP Cell.isIndex) ++
  bytesOf 2 (f.countImages .awaiting) ++ bytesOf 2 (f.countImages .present) ++ bytesOf 2 (f.countImages .missing) ++
  bytesOf 2 (f.countImages .damaged) ++
  bytesOf 2 f.buffers.length

/-- A FREE context answers its context state alone (R68), one byte (DEDUCED, log entry 32). -/
def readFiche (f : Frame) (s : State) : State × Answer :=
  let first := field f.body 1 2
  let count := field f.body 3 2
  match ctxOf (field f.body 0 1) with
  | none => s.refuse .malformed
  | some c =>
    match s.fiche c with
    | none => (s, some (.ok, [0]))
    | some x =>
      if x.format.cells < first + count then s.refuse .malformed
      else
        let (parts, t) := s.countByte x.indexUsed
        (t, some (.ok, x.summaryBytes parts ++ bytesOf 2 count ++
          ((x.cells.drop first).take count).flatMap Cell.bytes))

/-- READ FICHE (R68, R69). The cell entries are a list sent as its two-byte count and its entries (R189), so a cell count of 0,
"the summary alone" of R69, sends the count 0000h after the summary (DEDUCED, log entry 30). -/
def execReadFiche (s : State) : Host.Outcome State Fault Refusal := s.execute .readFiche readFiche

/-! ## CLOSE -/

/-- The context a CLOSE acts on, or its refusal (R124). The context state of FROZEN is one byte (DEDUCED, log entry 32). -/
def State.closeTarget (s : State) (l : LaneId) (named : Option CtxId) : CtxId ⊕ (Completion × List Byte) :=
  match named with
  | none =>
    match s.composingContext l with
    | some c => .inl c
    | none => .inr (.nothingOpen, [])
  | some c =>
    match s.fiche c with
    | none => .inr (.nothingOpen, [])
    | some f =>
      if f.lane ≠ l then .inr (.nothingOpen, [])
      else if f.state = .composing then .inl c
      else .inr (.frozen, bytesOf 1 f.state.code)

/-- A context id that may be absent as FFh (R187); `none` is out of range. -/
def closeCtxOf (n : Nat) : Option (Option CtxId) := if n = 255 then some none else (ctxOf n).map some

/-- The result items of CLOSE that follow the context id and serial (R127). The CLOSE result is one byte (DEDUCED, log
entry 32). -/
def closeItems (result : Nat) (freed waits missed : Option (List Byte)) : List Byte :=
  bytesOf 1 result ++ mayBeAbsent 3 freed ++ mayBeAbsent 3 waits ++ mayBeAbsent 2 missed

def close (f : Frame) (s : State) : State × Answer :=
  match laneOf (field f.body 0 1), closeCtxOf (field f.body 1 1) with
  | some l, some named =>
    match s.closeTarget l named with
    | .inr refusal => (s, some refusal)
    | .inl c =>
      match s.fiche c with
      | none => s.refuse .nothingOpen
      | some x =>
        let head := ctxSerialBytes c x.serial
        if x.indexUsed = 0 then
          (s.freeEmptyFiche c, some (.ok, head ++ closeItems 0 (some (bytesOf 3 x.serial)) none none))
        else
          let awaiting := x.countImages .awaiting
          let items :=
            if awaiting = 0 then closeItems 2 none none none
            else if x.imageWait = 0 then closeItems 2 none none (some (bytesOf 2 awaiting))
            else closeItems 1 none (some (bytesOf 2 awaiting ++ bytesOf 1 x.imageWait)) none
          (s.conclude (s.closeFiche c .host), some (.ok, head ++ items))
  | _, _ => s.refuse .malformed

/-- CLOSE (R124 to R127). -/
def execClose (s : State) : Host.Outcome State Fault Refusal := s.execute .close close

/-! ## REQUEUE and RELEASE -/

/-- A serial that may be absent as FFFFFFh (R187); `none` is out of range. -/
def optionalSerialOf (n : Nat) : Option (Option Nat) :=
  if n = 0xFFFFFF then some none else if n ≤ 999999 then some (some n) else none

def requeue (f : Frame) (s : State) : State × Answer :=
  match ctxOf (field f.body 0 1), optionalSerialOf (field f.body 1 3) with
  | some c, some serial =>
    match s.fiche c with
    | none => s.refuse .state
    | some x =>
      if x.state ≠ .failed ∨ serial.any (· != x.serial) then s.refuse .state
      else
        let t := (s.setContext c (some { x with attempts := 0, cellsDone := 0 })).queueFiche c
        (s.conclude t, some (.ok, ctxSerialBytes c x.serial ++ bytesOf 1 (t.queue x.lane).length))
  | _, _ => s.refuse .malformed

/-- REQUEUE (R131). -/
def execRequeue (s : State) : Host.Outcome State Fault Refusal := s.execute .requeue requeue

/-- A record without its parts on context c; their pages count as released when the fiche was EXPOSED (R22). -/
def Record.releaseFrom (c : CtxId) (exposed : Bool) (r : Record) : Record :=
  { r with
    parts := r.parts.filter fun p => p.ctx != c
    released := if exposed then r.released + ((r.parts.filter fun p => p.ctx == c).map (·.pages)).sum else r.released }

def Record.onContext (c : CtxId) (r : Record) : Bool := r.parts.any fun p => p.ctx == c

/-- R134: every part on the context is removed from its record, and every record left with no part from the directory. -/
def releaseRecords (c : CtxId) (exposed : Bool) (directory : List Record) : List Record :=
  (directory.map fun r => if r.onContext c then r.releaseFrom c exposed else r).filter fun r => !r.parts.isEmpty

/-- The context state in a reply of RELEASE is one byte (DEDUCED, log entry 32). -/
def release (f : Frame) (s : State) : State × Answer :=
  match ctxOf (field f.body 0 1), optionalSerialOf (field f.body 1 3) with
  | some c, some serial =>
    let refuseWithState (code : Completion) : State × Answer := (s, some (code, bytesOf 1 (s.contextCode c)))
    match s.fiche c with
    | none => refuseWithState .state
    | some x =>
      if x.state = .composing ∨ serial.any (· != x.serial) then refuseWithState .state
      else if x.state = .closing ∨ x.state = .queued ∨ x.state = .exposing then refuseWithState .busy
      else
        let exposed := x.state == .exposed
        let touched := s.directory.filter (Record.onContext c)
        let left := (touched.map (Record.releaseFrom c exposed)).countP fun r => !r.parts.isEmpty
        let parts := (touched.map fun r => r.parts.countP fun p => p.ctx == c).sum
        let (partsByte, t) := s.countByte parts
        let t := t.setContext c none
        let t := { t with directory := releaseRecords c exposed t.directory }
        (t.stallTest, some (.ok, ctxSerialBytes c x.serial ++ bytesOf 1 x.state.code ++ partsByte ++
          bytesOf 2 (touched.length - left) ++ bytesOf 2 left ++ bytesOf 2 x.buffers.length))
  | _, _ => s.refuse .malformed

/-- RELEASE (R133 to R135, R22). -/
def execRelease (s : State) : Host.Outcome State Fault Refusal := s.execute .release release

/-! ## The image wait -/

/-- IMAGE_WAIT_EXPIRY (R129): the timer of a CLOSING context reaches 0; a context in another state has no timer running
(R128), so no such event happens (DEDUCED, log entry 4). -/
def execImageWaitExpiry (context : Nat) (s : State) : Host.Outcome State Fault Refusal :=
  match ctxOf context with
  | none => .fault .noSuchContext
  | some c =>
    if (s.fiche c).any fun f => f.state == .closing then .next (s.conclude (s.expireImageWait c))
    else .next s

end Sys2Proof.Machine
end

