-- ==== Sys2Proof/Machine/Gate.lean ====
section
/-! DEFINITION. The Exposure Gate's commands (chapter 9): LOAD CURVE, SET FILM, the step-done events, jam and door
open. -/
namespace Sys2Proof.Machine

/-! ## LOAD CURVE and SET FILM -/

/-- The greatest curve entry (R165). -/
def maxEntry : Nat := 4095

def loadCurve (f : Frame) (s : State) : State × Answer :=
  match laneNumber (field f.body 0 1) with
  | none => s.refuse .malformed
  | some n =>
    let carried : Vector Nat 17 := Vector.ofFn fun i => field f.body (1 + 2 * i.val) 2
    let lowered := carried.toList.countP fun e => decide (maxEntry < e)
    let loaded : Curve := { s.gate.curves.get n with pendingCopy := carried.map (min maxEntry), pendingFlag := true }
    let atOnce := s.gate.state.atRest
    let curve := if atOnce then loaded.activate else loaded
    ({ s with gate := { s.gate with curves := s.gate.curves.set n.val curve } },
      some (.ok, bytesOf 1 n.val ++ bytesOf 1 lowered ++ bit atOnce))
where
  laneNumber (n : Nat) : Option (Fin 4) := if h : n < 4 then some ⟨n, h⟩ else none

/-- LOAD CURVE (R166, R167). -/
def execLoadCurve (s : State) : Host.Outcome State Fault Refusal := s.execute .loadCurve loadCurve

/-- The gate with a film count set by the host: from STOPPED it enters IDLE when the count is above 0 (R173). -/
def Gate.setFilm (g : Gate) (n : Nat) : Gate :=
  let g' := { g with film := n }
  if g.state = .stopped ∧ 0 < n then g'.enterIdle else g'

/-- The gate state in the reply is one byte (DEDUCED, log entry 32). -/
def setFilm (f : Frame) (s : State) : State × Answer :=
  let carried := field f.body 0 2
  if !s.gate.state.atRest then s.refuse .busy
  else
    let n := min 4095 carried
    let g := s.gate.setFilm n
    (s.conclude { s with gate := g },
      some (.ok, bytesOf 2 n ++ bit (decide (4095 < carried)) ++ bytesOf 1 g.state.code))

/-- SET FILM (R173, R148, R170). -/
def execSetFilm (s : State) : Host.Outcome State Fault Refusal := s.execute .setFilm setFilm

/-! ## What the gate exposes -/

/-- The settings of a fiche's exposure, with its curve's active copy (R162, R163, R165). -/
def State.driveSettings (s : State) (f : Fiche) : DriveSettings :=
  ⟨f.polarity, (s.gate.curves.get f.curve).active, f.gain, f.bias⟩

/-- The step that exposes a cell (R155, R5). -/
def State.cellStep (s : State) (f : Fiche) (cell : Nat) (p : Picture) : Step :=
  let (x, y) := cellOrigin f.format cell
  .expose x y p (s.driveSettings f)

def State.enterGate (s : State) (g : GateState) (step : Option Step) : State := { s with gate := s.gate.enter g step }

/-- The gate enters CUT and begins the cut (R157, R159). -/
def State.beginCut (s : State) (c : CtxId) : State := s.enterGate (.cut c) (some .cut)

/-! ## The index (R114 to R117) -/

/-- The flag character of an index line (R116). -/
def State.indexFlag (s : State) (r : Record) (p : RecordPart) : Nat :=
  if s.partHas r p .damaged then 68
  else if s.partHas r p .missing then 73
  else if r.parts.length = 2 then 67
  else 32

/-- R115. -/
def State.indexLine (s : State) (f : Format) (r : Record) (p : RecordPart) : Text :=
  decimal 15 r.key.toNat ++ [32] ++ printedCell f p.firstCell ++ [32] ++ decimal 2 p.pages ++ [32] ++ [s.indexFlag r p]

/-- The index list of a context, in ascending key order (R114). -/
def State.indexList (s : State) (c : CtxId) (f : Fiche) : List Text :=
  s.directory.flatMap fun r => (r.parts.filter fun p => p.ctx == c).map (s.indexLine f.format r)

/-- An index cell is rendered and its step begins (R159). -/
def State.exposeIndexCell (s : State) (c : CtxId) (f : Fiche) (cell : Nat) (list : List Text) : State :=
  let lines := indexCellLines f.format list (cell - usableCells f.format f.k)
  s.enterGate (.index c cell list) (some (s.cellStep f cell (.index f.format lines)))

/-- The page cells are finished: the index stage, or the cut (R157, R159). -/
def State.finishPages (s : State) (c : CtxId) : State :=
  match s.fiche c with
  | some f =>
    if f.k.val = 0 then s.beginCut c
    else s.exposeIndexCell c f (usableCells f.format f.k) (s.indexList c f)
  | none => s

/-! ## Reaching a page cell (R158, R102, R103, R164) -/

def State.modifyCell (s : State) (c : CtxId) (cell : Nat) (g : Occupied → Occupied) : State :=
  s.modifyFiche c fun f => { f with cells := mapCells (fun i e => if i = cell then e.modify g else e) f.cells }

/-- The read of one cell's buffer: counts and write-back (R102, R103). -/
def State.readBuffer (s : State) (c : CtxId) (f : Format) (buffer : Nat) : ReadOutcome × State :=
  let m := s.memory
  let corrected := m.countGroups f buffer .correctable
  let outcome := m.readOutcome f buffer
  let s := { s with memory := m.writeBack f buffer }
  let s := s.modifyFiche c fun x => { x with corrected := saturate x.corrected corrected }
  (outcome, s.withCounters fun k =>
    { k with
      correctedEcc := saturate k.correctedEcc corrected
      uncorrectableEcc := saturate k.uncorrectableEcc (if outcome = .uncorrectable then 1 else 0) })

/-- A cell whose page has a clamped spot (R164). -/
def State.saturateCell (s : State) (c : CtxId) (cell : Nat) : State :=
  let s := s.modifyCell c cell fun o => { o with saturated := true }
  let s := s.modifyFiche c fun f => { f with saturatedCells := saturate f.saturatedCells 1 }
  s.withCounters fun k => { k with saturatedCells := saturate k.saturatedCells 1 }

/-- What a reached cell shows, and the state with its read's and its saturation's effects (R158). A cell that holds no
buffer shows the placeholder of a page that never arrived (a PRESENT or DAMAGED cell always holds one: DESIGN CHOICE, log entry 19). -/
def State.showCell (s : State) (c : CtxId) (f : Fiche) (cell : Nat) (o : Occupied) : Picture × State :=
  let damaged : Picture := .placeholder f.format damagedText (placeholderLine2 o)
  let notReceived : Picture := .placeholder f.format notReceivedText (placeholderLine2 o)
  match o.image, o.buffer with
  | .present, some b =>
    let extent := (s.memory.extent b).getD f.format
    match s.readBuffer c extent b with
    | (.uncorrectable, t) =>
      (damaged, (t.setLaneFlag f.lane .damaged).modifyCell c cell fun o => { o with image := .damaged })
    | (.clean, t) | (.corrected, t) =>
      let content := s.memory.content extent b
      (.page extent content, if pageClamps (s.driveSettings f) extent content then t.saturateCell c cell else t)
  | .damaged, some b =>
    match s.readBuffer c ((s.memory.extent b).getD f.format) b with
    | (.uncorrectable, t) => (damaged, t.setLaneFlag f.lane .damaged)
    | (.clean, t) | (.corrected, t) => (damaged, t)
  | .damaged, none => (damaged, s)
  | .present, none | .missing, _ | .awaiting, _ => (notReceived, s)

/-- The lowest OCCUPIED cell at or above a cell (R157). -/
def nextOccupied (cells : List Cell) (start : Nat) : Option (Nat × Occupied) :=
  (cells.zipIdx.drop start).findSome? fun e => e.1.entry.map fun o => (e.2, o)

/-- The gate reaches the next OCCUPIED cell, or has finished the page cells (R157, R158). -/
def State.reachFrom (s : State) (c : CtxId) (start : Nat) : State :=
  match s.fiche c with
  | some f =>
    match nextOccupied f.cells start with
    | some (cell, o) =>
      let (picture, t) := s.showCell c f cell o
      t.enterGate (.cells c cell) (some (t.cellStep f cell picture))
    | none => s.finishPages c
  | none => s

/-! ## Step done (R155 to R160, R177) -/

/-- ADVANCE_DONE (R156, R113). A step done that is not of the step in flight has no effect (R155, DEDUCED, log entry 4). -/
def execAdvanceDone (s : State) : Host.Outcome State Fault Refusal :=
  match s.gate.state with
  | .advance c =>
    match s.fiche c with
    | some f =>
      let t := if titleClips f.format f.lines f.spacing then s.setContext c (some { f with titleClipped := true }) else s
      .next (t.enterGate (.title c)
        (some (.expose 0 0 (.title f.format f.lines f.spacing) (s.driveSettings f))))
    | none => .next s
  | .idle | .title _ | .cells _ _ | .index _ _ _ | .cut _ | .spoil | .stopped => .next s

/-- TITLE_DONE (R157). -/
def execTitleDone (s : State) : Host.Outcome State Fault Refusal :=
  match s.gate.state with
  | .title c => .next (s.reachFrom c 0)
  | .idle | .advance _ | .cells _ _ | .index _ _ _ | .cut _ | .spoil | .stopped => .next s

def State.cellIsDone (s : State) (c : CtxId) : State :=
  s.modifyFiche c fun f => { f with cellsDone := f.cellsDone + 1 }

/-- CELL_DONE (R157). -/
def execCellDone (s : State) : Host.Outcome State Fault Refusal :=
  match s.gate.state with
  | .cells c current => .next ((s.cellIsDone c).reachFrom c (current + 1))
  | .idle | .advance _ | .title _ | .index _ _ _ | .cut _ | .spoil | .stopped => .next s

/-- INDEX_CELL_DONE (R159). -/
def execIndexCellDone (s : State) : Host.Outcome State Fault Refusal :=
  match s.gate.state with
  | .index c current list =>
    let t := s.cellIsDone c
    match t.fiche c with
    | some f =>
      .next (if current + 1 < f.format.cells then t.exposeIndexCell c f (current + 1) list else t.beginCut c)
    | none => .next s
  | .idle | .advance _ | .title _ | .cells _ _ | .cut _ | .spoil | .stopped => .next s

/-- The context is on film: EXPOSED, its cells holding no buffer (R160, R45). -/
def Fiche.expose (f : Fiche) : Fiche :=
  { f with state := .exposed, cells := f.cells.map (Cell.modify fun o => { o with buffer := none }) }

/-- The gate at the end of a sheet: IDLE, flagged curves activated (R160, R177). -/
def Gate.sheetDelivered (g : Gate) : Gate := g.enterIdle.activateCurves

/-- CUT_COMPLETION (R160). -/
def execCutCompletion (s : State) : Host.Outcome State Fault Refusal :=
  match s.gate.state with
  | .cut c =>
    match s.fiche c with
    | some f =>
      let t := s.setContext c (some f.expose)
      let t := (t.setLaneFlag f.lane .exposed).settleFences c .exposed
      let t := { t with gate := t.gate.sheetDelivered }
      .next (s.conclude t.stallTest)
    | none => .next s
  | .idle | .advance _ | .title _ | .cells _ _ | .index _ _ _ | .spoil | .stopped => .next s

/-- SPOIL_COMPLETION (R177). -/
def execSpoilCompletion (s : State) : Host.Outcome State Fault Refusal :=
  match s.gate.state with
  | .spoil => .next (s.conclude { s with gate := s.gate.sheetDelivered })
  | .idle | .advance _ | .title _ | .cells _ _ | .index _ _ _ | .cut _ | .stopped => .next s

/-! ## Jam and door open (R175) -/

/-- The gate enters STOPPED; flagged curves are activated when it comes from an exposure or a spoil cut (R167, DEDUCED, log
entry 20). -/
def Gate.stop (g : Gate) : Gate :=
  (if g.state.busy then g.activateCurves else g).enter .stopped none

/-- A jam or a door-open event stops the gate, spoiling any sheet in progress (R175). -/
def State.stopTransport (s : State) : State :=
  let s := s.setFlag transportBit
  let s := match s.gate.state.underExposure with
    | some c => s.countSpoiled.interruptFiche c
    | none => s
  { s with gate := s.gate.stop }

/-- JAM (R175). -/
def execJam (s : State) : Host.Outcome State Fault Refusal :=
  .next (if s.lines.resetLine then s else s.conclude s.stopTransport)

/-- DOOR_OPEN (R175, R173): as a jam, and the film count becomes 0. -/
def execDoorOpen (s : State) : Host.Outcome State Fault Refusal :=
  if s.lines.resetLine then .next s
  else
    let t := s.stopTransport
    .next (s.conclude { t with gate := { t.gate with film := 0 } })

end Sys2Proof.Machine
end

