-- ==== Sys2Proof/Machine/Intake.lean ====
section
/-! DEFINITION. Image Intake (chapter 4): taking bytes, judging headers, reduction, attaching; and storage upsets. -/
namespace Sys2Proof.Machine

/-! ## Reduction (R82 to R86) -/

def ceilDiv (a b : Nat) : Nat := (a + b - 1) / b

/-- The target raster of a transfer (R80). -/
def targetWidth (f : Format) (s : Span) : Nat := s.cells * f.cellWidth

/-- R82, before the two clamps. -/
def rawStep (w h tw th : Nat) : Nat := max (ceilDiv (w * 256) tw) (ceilDiv (h * 256) th)

/-- R82, R83. -/
def figuresOf (h : Header) (f : Format) (s : Span) : Figures :=
  let tw := targetWidth f s
  let th := f.cellHeight
  let raw := rawStep h.width h.height tw th
  let step := min 2048 (max 256 raw)
  let ow := min tw (max 1 (h.width * 256 / step))
  let oh := min th (max 1 (h.height * 256 / step))
  { step := step, ow := ow, oh := oh, ox := (tw - ow) / 2, oy := (th - oh) / 2, cropped := decide (2048 < raw) }

/-- The first and last source column (or line) of a spot, for a source of n (R84). -/
def spotWindow (step n i : Nat) : Nat × Nat :=
  let a := i * step / 256
  (a, max a (min ((i + 1) * step / 256 - 1) (n - 1)))

def windowCount (w : Nat × Nat) : Nat := w.2 - w.1 + 1

/-- The sum of a line's gray values in each spot's column window. -/
def lineSums (g : Figures) (width : Nat) (gray : List Nat) : List Nat :=
  (List.range g.ow).map fun x =>
    let w := spotWindow g.step width x
    ((gray.drop w.1).take (windowCount w)).sum

/-- The mean rounded half up (R85). -/
def meanOf (sum count : Nat) : Nat := (sum + count / 2) / count

/-- The target spot row of a spot row whose window sums are complete: the block between margins of 255 (R85). -/
def targetRow (m : Matched) (y : Nat) (sums : List Nat) : List Byte :=
  let g := m.figures
  let lines := windowCount (spotWindow g.step m.header.height y)
  let block := sums.zipIdx.map fun (sum, x) =>
    (BitVec.ofNat 8 (meanOf sum (windowCount (spotWindow g.step m.header.width x) * lines)) : Byte)
  List.replicate g.ox blankSpot ++ block ++
    List.replicate (targetWidth m.format m.span - g.ox - g.ow) blankSpot

/-- A target spot row written to the transfer's buffers: the first takes the first Fw columns, the second the rest
(R85, R86). -/
def writeTargetRow (mem : Memory) (m : Matched) (buffers : List Nat) (y : Nat) (row : List Byte) : Memory :=
  let fw := m.format.cellWidth
  buffers.zipIdx.foldl (fun mem (b, i) => mem.writeRow m.format b y ((row.drop (i * fw)).take fw)) mem

/-- The spot row whose line window holds a source line (R84, R86). -/
def rowOfLine (m : Matched) (l : Nat) : Option Nat :=
  (List.range m.figures.oh).find? fun y =>
    let w := spotWindow m.figures.step m.header.height y
    decide (w.1 ≤ l ∧ l ≤ w.2)

/-- A completed line, the l-th counted from 0, contributes to the spot row whose window holds it; the row is written when the
last line of its window is complete (R86). Answers the new window sums and Page Memory. -/
def takeLine (m : Matched) (buffers : List Nat) (l : Nat) (line : List Byte) (sums : List Nat) (mem : Memory) :
    List Nat × Memory :=
  match rowOfLine m l with
  | none => (sums, mem)
  | some y =>
    let w := spotWindow m.figures.step m.header.height y
    let here := lineSums m.figures m.header.width (grayLine m.header.depth m.header.width line)
    let sums := if l = w.1 then here else List.zipWith (· + ·) sums here
    if l = w.2 then
      (sums, writeTargetRow mem m buffers (m.figures.oy + y) (targetRow m y sums))
    else (sums, mem)

/-- The margin rows of a transfer that ends, written with 255 (R86, DESIGN CHOICE, log entry 10). -/
def writeTransferMargins (m : Matched) (buffers : List Nat) (mem : Memory) : Memory :=
  let margin (y : Nat) : Bool := y < m.figures.oy || m.figures.oy + m.figures.oh ≤ y
  buffers.foldl (fun mem b => mem.writeMargins m.format b margin) mem

/-! ## Matching (R78, R79, R87, R89) -/

/-- The judgment of a key and page against the directory and the cell maps. -/
inductive Judgment where
  | matched (r : Record) (p : RecordPart) (f : Fiche)
  | rejected (why : Rejection)
  deriving DecidableEq, Repr

/-- Every cell of a page is AWAITING (R78). -/
def pageAwaiting (f : Fiche) (p : RecordPart) (span : Span) (page : Nat) : Bool :=
  let es := f.entriesOf (p.cellOf span page) span.cells
  es.length == span.cells && es.all fun o => o.image == .awaiting

/-- The four conditions of R78 in order, and the judgment of the first that fails (R79). -/
def State.judge (s : State) (key : Key) (page : Nat) : Judgment :=
  match s.record key with
  | none => .rejected .orphan
  | some r =>
    if r.pageCount < page then .rejected .orphan
    else
      match r.partOf page with
      | none => .rejected .late
      | some p =>
        match s.fiche p.ctx with
        | none => .rejected .late
        | some f =>
          if f.state = .composing ∨ (f.state = .closing ∧ pageAwaiting f p r.span page) then .matched r p f
          else .rejected .late

/-- The flag and the counter of a transfer judged orphan or late (R76, R79, R89). -/
def State.reject (s : State) : Rejection → State
  | .orphan => (s.setFlag orphanBit).withCounters fun k => { k with orphanImages := saturate k.orphanImages 1 }
  | .late => (s.setFlag lateBit).withCounters fun k => { k with lateImages := saturate k.lateImages 1 }

/-- A header judged orphan or late: its raster is dropped; one without a raster ends at its header (R76, R79). -/
def State.discard (s : State) (h : Header) (why : Rejection) : State :=
  { s.reject why with
    intake := if h.rasterBytes = 0 then .ready [] else .discarding h why h.rasterBytes }

/-- The judgment of a header (R76, R78, R79, R81). -/
def State.judgeHeader (s : State) (h : Header) : State :=
  if h.invalid then s.discard h .orphan
  else
    match s.judge h.key h.page with
    | .rejected why => s.discard h why
    | .matched r _ f =>
      let m : Matched := ⟨h, f.format, r.span, figuresOf h f.format r.span⟩
      if s.poolHas r.span.cells then s.reserve m
      else { s.setFlag poolStallBit with intake := .stalled m }

/-! ## The end of a transfer (R87 to R90) -/

/-- The cells of a page take the transfer's buffers; a buffer a cell held before is in the pool, since no cell holds it
any more (R88, R100). -/
def attachCells (cells : List Cell) (first : Nat) (buffers : List Nat) (cropped : Bool) : List Cell :=
  mapCells (fun i e =>
    if first ≤ i then
      match buffers[i - first]? with
      | some b => e.modify fun o => { o with buffer := some b, image := .present, cropped := cropped }
      | none => e
    else e) cells

/-- A transfer whose last line is complete is judged again, and attached or rejected (R87 to R90). -/
def State.endTransfer (s : State) (m : Matched) (buffers : List Nat) : State :=
  let t := { s with intake := .ready [] }
  match s.judge m.header.key m.header.page with
  | .rejected why => t.reject why
  | .matched r p f =>
    if f.format ≠ m.format ∨ r.span ≠ m.span then t.reject .orphan
    else
      let t := t.setContext p.ctx (some { f with
        cells := attachCells f.cells (p.cellOf r.span m.header.page) buffers m.figures.cropped })
      let t := t.updateRecord r.key fun r => { r with revision := r.revision + 1 }
      t.completeIfDone p.ctx

/-! ## Bytes of the image port -/

/-- R72: the part takes no byte while it asserts hold or the image-abort line is asserted (DEDUCED, log entry 5). -/
def State.takesImageBytes (s : State) : Bool := !s.holdLine && !s.lines.abortLine

/-- IMAGE_BYTE_TAKEN (R72, R74, R76, R77, R86): a byte that is neither the twelfth header byte nor the byte that ends a
transfer; a byte that would be one of these is the event of another row (DEDUCED, log entry 28). -/
def execImageByteTaken (byte : Byte) (s : State) : Host.Outcome State Fault Refusal :=
  if !s.takesImageBytes then .next s
  else
    match s.intake with
    | .ready taken => .next (if taken.length < 11 then { s with intake := .ready (taken ++ [byte]) } else s)
    | .stalled _ => .next s
    | .receiving m buffers lines line sums =>
      let line := line ++ [byte]
      if line.length < m.header.lineBytes then .next { s with intake := .receiving m buffers lines line sums }
      else if lines + 1 < m.header.height then
        let (sums, mem) := takeLine m buffers lines line sums s.memory
        .next { s with intake := .receiving m buffers (lines + 1) [] sums, memory := mem }
      else .next s
    | .discarding h why toDrop =>
      .next (if 1 < toDrop then { s with intake := .discarding h why (toDrop - 1) } else s)

/-- IMAGE_HEADER (R75): the twelfth header byte. -/
def execImageHeader (byte : Byte) (s : State) : Host.Outcome State Fault Refusal :=
  match s.intake with
  | .ready taken =>
    .next (if s.takesImageBytes ∧ taken.length = 11 then s.judgeHeader (headerOf (taken ++ [byte])) else s)
  | .stalled _ | .receiving _ _ _ _ _ | .discarding _ _ _ => .next s

/-- IMAGE_END (R87): the byte that completes line H of a RECEIVING transfer. -/
def execImageEnd (byte : Byte) (s : State) : Host.Outcome State Fault Refusal :=
  match s.intake with
  | .receiving m buffers lines line sums =>
    let line := line ++ [byte]
    if s.takesImageBytes ∧ m.header.lineBytes ≤ line.length ∧ m.header.height ≤ lines + 1 then
      let (_, mem) := takeLine m buffers lines line sums s.memory
      let t := { s with memory := writeTransferMargins m buffers mem }
      .next (s.conclude (t.endTransfer m buffers))
    else .next s
  | .ready _ | .stalled _ | .discarding _ _ _ => .next s

/-- DISCARDING_END (R76): the last byte to drop; its value is ignored. -/
def execDiscardingEnd (_byte : Byte) (s : State) : Host.Outcome State Fault Refusal :=
  match s.intake with
  | .discarding _ _ toDrop => .next (if s.takesImageBytes ∧ toDrop ≤ 1 then { s with intake := .ready [] } else s)
  | .ready _ | .stalled _ | .receiving _ _ _ _ _ => .next s

/-- IMAGE_ABORT (R73): any transfer ends, its buffers returning to the pool since Image Intake holds none in READY; with the
line already asserted it finds none (DEDUCED, log entry 31). -/
def execImageAbort (s : State) : Host.Outcome State Fault Refusal :=
  .next { s with intake := .ready [], lines := { s.lines with abortLine := true } }

/-- IMAGE_ABORT_RELEASE (R73); with the line not asserted nothing changes (DEDUCED, log entry 31). -/
def execImageAbortRelease (s : State) : Host.Outcome State Fault Refusal :=
  .next { s with lines := { s.lines with abortLine := false } }

/-! ## Storage upsets -/

/-- STORAGE_UPSET (R101): one stored bit changes and nothing else. -/
def execStorageUpset (buffer row group bit : Nat) (s : State) : Host.Outcome State Fault Refusal :=
  if buffer < bufferCount ∧ row < 1536 ∧ group < 256 ∧ bit < 72 then
    .next { s with memory := s.memory.upset (groupOf (spotAddress buffer (8 * group) row)) bit }
  else .fault .noSuchStorage

end Sys2Proof.Machine
end

