-- ==== Sys2Proof/Machine/Lamp.lean ====
section
/-! DEFINITION. The lamp's commands (section 9.4): SET STANDBY, LAMP ON, OFF and CLEAR, the lamp-unit events and the
lamp's timers. -/
namespace Sys2Proof.Machine

def setStandby (f : Frame) (s : State) : State × Answer :=
  let n := field f.body 0 1
  ({ s with gate := { s.gate with standbyPeriod := n } },
    some (.ok, bytesOf 1 n ++ bytesOf 1 (effectivePeriod n)))

/-- SET STANDBY (R171). -/
def execSetStandby (s : State) : Host.Outcome State Fault Refusal := s.execute .setStandby setStandby

/-! ## LAMP (R172) -/

/-- A refused LAMP gives the lamp state, one byte (DEDUCED, log entry 32). -/
def State.refuseLamp (s : State) (code : Completion) : State × Answer :=
  (s, some (code, bytesOf 1 s.gate.lamp.code))

/-- A LAMP request that is performed gives the lamp state before and after it, one byte each (DEDUCED, log entry 32). -/
def State.performLamp (s : State) (g : Gate) : State × Answer :=
  ({ s with gate := g }, some (.ok, bytesOf 1 s.gate.lamp.code ++ bytesOf 1 g.lamp.code))

def lampOn (f : Frame) (s : State) : State × Answer :=
  if field f.body 0 1 ≠ 0 then s.refuseLamp .malformed
  else
    match s.gate.lamp with
    | .off | .standby => s.performLamp (s.gate.lampTo .warming)
    | .warming | .ready => s.performLamp s.gate
    | .fault => s.refuseLamp .state

def lampOff (_f : Frame) (s : State) : State × Answer :=
  if s.gate.lamp = .fault then s.refuseLamp .state
  else if s.gate.state.busy then s.refuseLamp .busy
  else s.performLamp (s.gate.lampTo .off)

def lampClear (_f : Frame) (s : State) : State × Answer :=
  match s.gate.lamp with
  | .fault => s.performLamp (s.gate.lampTo .off)
  | .off | .warming | .ready | .standby => s.refuseLamp .state

/-- LAMP ON (R172). -/
def execLampOn (s : State) : Host.Outcome State Fault Refusal := s.execute .lampOn lampOn

/-- LAMP OFF (R172). -/
def execLampOff (s : State) : Host.Outcome State Fault Refusal := s.execute .lampOff lampOff

/-- LAMP CLEAR (R172). -/
def execLampClear (s : State) : Host.Outcome State Fault Refusal := s.execute .lampClear lampClear

/-! ## Events (R169, R170, R174) -/

/-- LAMP_STABLE (R169): taken while the lamp is WARMING. -/
def execLampStable (s : State) : Host.Outcome State Fault Refusal :=
  .next (if s.lines.resetLine ∨ s.gate.lamp ≠ .warming then s else { s with gate := s.gate.lampTo .ready })

/-- The lamp enters FAULT and LAMP_FAULT is set (R169). -/
def State.lampFails (s : State) : State := { s.setFlag lampFaultBit with gate := s.gate.lampTo .fault }

/-- A lamp fault meeting an exposure spoils its sheet (R174). -/
def State.spoilExposure (s : State) (c : CtxId) : State :=
  let s := s.countSpoiled.interruptFiche c
  { s with gate := s.gate.enter .spoil (some .spoilCut) }

/-- LAMP_FAULT (R169, R174). -/
def execLampFault (s : State) : Host.Outcome State Fault Refusal :=
  if s.lines.resetLine then .next s
  else
    match s.gate.lamp with
    | .off => .next s
    | .fault => .next (s.setFlag lampFaultBit)
    | .warming | .ready | .standby =>
      match s.gate.state.underExposure with
      | some c => .next (s.conclude (s.lampFails.spoilExposure c))
      | none => .next s.lampFails

/-- WARM_UP_EXPIRY (R169): the timer runs in WARMING only. -/
def execWarmUpExpiry (s : State) : Host.Outcome State Fault Refusal :=
  .next (if s.gate.lamp = .warming then s.lampFails else s)

/-- STANDBY_EXPIRY (R170): the lamp enters STANDBY, and wakes in the same event when a fiche is queued. -/
def execStandbyExpiry (s : State) : Host.Outcome State Fault Refusal :=
  .next (if s.gate.standby.isSome then s.conclude { s with gate := s.gate.lampTo .standby } else s)

end Sys2Proof.Machine
end

