-- ==== Sys2Proof/Machine/Link.lean ====
section
/-! DEFINITION. The Request Link's commands (chapter 10): FENCE (section 7.5), READ STATUS, the attention and counter
requests, RESET, frame arrival and sending, the reset line and power-on. -/
namespace Sys2Proof.Machine

/-! ## FENCE -/

/-- A fence scope: one lane, or ALL as FFh (R187); `none` is out of range (R136). -/
def scopeOf (n : Nat) : Option (Option LaneId) := laneFilterOf n

/-- The snapshot of a FENCE: the contexts in scope in CLOSING, QUEUED or EXPOSING, in context order (R136). -/
def State.snapshot (s : State) (scope : Option LaneId) : List FenceMember :=
  (List.finRange 8).filterMap fun c =>
    (s.fiche c).bind fun f =>
      if scope.all (· == f.lane) ∧ (f.state = .closing ∨ f.state = .queued ∨ f.state = .exposing) then
        some ⟨c, f.serial, none⟩
      else none

/-- The fences that may be parked at one time (R136). -/
def maxFences : Nat := 4

def fence (f : Frame) (s : State) : State × Answer :=
  let tag : Byte := f.body.getD 0 0
  match scopeOf (field f.body 1 1) with
  | none => s.refuse .malformed
  | some scope =>
    let members := s.snapshot scope
    if members.isEmpty then (s, some (.ok, [tag, 0, 0]))
    else if maxFences ≤ s.port.fences.length then s.refuse .busy
    else ({ s with port := { s.port with fences := s.port.fences ++ [⟨f.byte 0, f.byte 1, tag, members⟩] } }, none)

/-- FENCE (R136). -/
def execFence (s : State) : Host.Outcome State Fault Refusal := s.execute .fence fence

/-! ## READ STATUS (R205) -/

/-- 0 undefined, 1 enabled, 2 disabled (R187). -/
def Lane.conditionCode (l : Lane) : Nat :=
  match l.definition with
  | none => 0
  | some d => if d.enabled then 1 else 2

/-- A lane queue: its count, then 8 slots of context id and serial, head first, unused slots 0 (R205). -/
def State.queueBytes (s : State) (l : LaneId) : List Byte :=
  let q := s.queue l
  bytesOf 1 q.length ++ (q.flatMap fun c => ctxSerialBytes c (s.serialOf c)) ++ List.replicate (4 * (8 - q.length)) 0

def Intake.code : Intake → Nat
  | .ready _ => 0 | .stalled _ => 1 | .receiving _ _ _ _ _ => 2 | .discarding _ _ _ => 3

def Intake.headerCount : Intake → Nat
  | .ready taken => taken.length
  | .stalled _ | .receiving _ _ _ _ _ | .discarding _ _ _ => 0

/-- The header of the transfer in progress (R74). -/
def Intake.header : Intake → Option Header
  | .ready _ => none
  | .stalled m | .receiving m _ _ _ _ => some m.header
  | .discarding h _ _ => some h

/-- The judgment: 0 none, 1 MATCHED, 2 ORPHAN, 3 LATE (R187). -/
def Intake.judgmentCode : Intake → Nat
  | .ready _ => 0
  | .stalled _ | .receiving _ _ _ _ _ => 1
  | .discarding _ .orphan _ => 2
  | .discarding _ .late _ => 3

/-- The lines received (R74): of a DISCARDING transfer, the whole lines whose bytes have been dropped (R76); none yet in
STALLED (DEDUCED, log entry 26). -/
def Intake.lines : Intake → Nat
  | .ready _ | .stalled _ => 0
  | .receiving _ _ lines _ _ => lines
  | .discarding h _ toDrop => (h.rasterBytes - toDrop) / h.lineBytes

def transferBytes (i : Intake) : List Byte :=
  mayBeAbsent 11 (i.header.map fun h => bytesOf 6 h.key.toNat ++ bytesOf 1 h.page ++ bytesOf 2 h.width ++ bytesOf 2 h.height)
    ++ bytesOf 1 i.judgmentCode ++ bytesOf 2 i.lines ++ bytesOf 1 i.buffers.length

/-- The exposure and the current cell (R181, R161). -/
def State.exposureBytes (s : State) : List Byte :=
  let c := s.gate.state.underExposure
  mayBeAbsent 4 (c.map fun c => ctxSerialBytes c (s.serialOf c)) ++
  mayBeAbsent 5 (c.bind fun c => s.gate.state.current.map fun cell =>
    bytesOf 2 cell ++ printedBytes (s.formatOf c) cell)

/-- The pending flags of the four curves, summed (R205). -/
def Gate.curveFlags (g : Gate) : Nat :=
  ((List.finRange 4).map fun n => if (g.curves.get n).pendingFlag then 2 ^ n.val else 0).sum

def lampBytes (g : Gate) : List Byte :=
  bytesOf 1 g.lamp.code ++ bytesOf 1 g.standbyPeriod ++ bytesOf 1 (effectivePeriod g.standbyPeriod) ++
  mayBeAbsent 1 (g.warmUp.map (bytesOf 1)) ++ mayBeAbsent 2 (g.standby.map (bytesOf 2)) ++ bytesOf 1 g.curveFlags

def State.statusBytes (s : State) : List Byte :=
  bytesOf 1 s.outstanding ++ bytesOf 1 s.port.fences.length ++ bit s.attentionLine ++
  ((List.finRange 4).flatMap fun l => bytesOf 1 (s.lane l).conditionCode) ++
  ((List.finRange 4).flatMap fun l => bytesOf 3 (s.lane l).nextSerial) ++
  bytesOf 2 s.directory.length ++
  ((List.finRange 8).flatMap fun c => bytesOf 1 (s.contextCode c)) ++
  ((List.finRange 4).flatMap s.queueBytes) ++
  bytesOf 1 s.intake.code ++ bytesOf 1 s.intake.headerCount ++ transferBytes s.intake ++
  bytesOf 2 s.freePool.length ++
  s.arbiter.active.toList ++ bit s.arbiter.pendingFlag ++ bytesOf 1 s.arbiter.pointer.val ++
  bytesOf 1 s.arbiter.lastLane.val ++
  bytesOf 1 s.gate.state.code ++ s.exposureBytes ++ bytesOf 2 s.gate.film ++ lampBytes s.gate

def readStatus (_f : Frame) (s : State) : State × Answer := (s, some (.ok, s.statusBytes))

/-- READ STATUS (R204, R205). -/
def execReadStatus (s : State) : Host.Outcome State Fault Refusal := s.execute .readStatus readStatus

/-! ## Attention and counters -/

/-- The 24-bit value a body carries (R196). -/
def attentionField (body : List Byte) : BitVec 24 := BitVec.ofNat 24 (field body 0 3)

def attentionBytes (v : BitVec 24) : List Byte := bytesOf 3 v.toNat

def readAttention (f : Frame) (s : State) : State × Answer :=
  let selection := attentionField f.body
  if reservedSet selection then s.refuse .malformed
  else
    let after := s.port.flags &&& ~~~selection
    ({ s with port := { s.port with flags := after } },
      some (.ok, attentionBytes s.port.flags ++ attentionBytes s.port.mask ++ attentionBytes after))

/-- READ ATTENTION (R198). -/
def execReadAttention (s : State) : Host.Outcome State Fault Refusal := s.execute .readAttention readAttention

def setAttentionMask (f : Frame) (s : State) : State × Answer :=
  let mask := attentionField f.body
  if reservedSet mask then s.refuse .malformed
  else
    ({ s with port := { s.port with mask := mask } },
      some (.ok, attentionBytes s.port.mask ++ attentionBytes mask ++ attentionBytes s.port.flags))

/-- SET ATTENTION MASK (R199). -/
def execSetAttentionMask (s : State) : Host.Outcome State Fault Refusal := s.execute .setAttentionMask setAttentionMask

def readCounters (f : Frame) (s : State) : State × Answer :=
  match yesNoOf (field f.body 0 1) with
  | none => s.refuse .malformed
  | some clear =>
    (if clear then s.withCounters fun _ => Counters.zero else s,
      some (.ok, s.port.counters.list.flatMap (bytesOf 2) ++ bit clear))

/-- READ COUNTERS (R202). -/
def execReadCounters (s : State) : Host.Outcome State Fault Refusal := s.execute .readCounters readCounters

/-! ## RESET (R206) -/

/-- Every pending fence is answered ABORTED, in the order in which they were parked (R139). -/
def State.abortFences (s : State) : State :=
  { s with port := { s.port with
      fences := []
      outbound := s.port.outbound ++ s.port.fences.map PendingFence.abortedReply } }

/-- The soft reset of the gate: an exposure goes to SPOIL and its fiche to the head of its queue (R178, R71). -/
def State.softResetGate (s : State) : State :=
  match s.gate.state.underExposure with
  | some c => (s.countSpoiled.putBack c).enterGate .spoil (some .spoilCut)
  | none => s

/-- A transfer is in motion: Image Intake is not READY or holds header bytes (R206). -/
def Intake.inMotion : Intake → Bool
  | .ready taken => !taken.isEmpty
  | .stalled _ | .receiving _ _ _ _ _ | .discarding _ _ _ => true

/-- The soft reset of the Arbiter (R153). -/
def Arbiter.softReset (a : Arbiter) : Arbiter := { a.activate with pointer := 0 }

def softReset (_f : Frame) (s : State) : State × Answer :=
  let t := s.softResetGate.abortFences
  let t := { t with intake := .ready [], arbiter := t.arbiter.softReset }
  (s.conclude t, some (.ok, bytesOf 1 s.port.fences.length ++ bit s.intake.inMotion ++
    mayBeAbsent 1 (s.gate.state.underExposure.map fun c => bytesOf 1 c.val)))

/-- RESET (R206). -/
def execReset (s : State) : Host.Outcome State Fault Refusal := s.execute .reset softReset

/-! ## Frames -/

/-- A frame whose request code names no request is refused by the framing checks (R193). -/
def unknownRequest (_f : Frame) (s : State) : State × Answer := s.refuse .unknown

/-- UNKNOWN_REQUEST (R193). -/
def execUnknownRequest (s : State) : Host.Outcome State Fault Refusal := s.execute .unknown unknownRequest

/-- The outstanding requests at which a frame is not taken (R190). -/
def maxOutstanding : Nat := 16

/-- The longest frame taken whole (R182). -/
def maxFrame : Nat := 132

def queueFullReplies (s : State) : Nat := s.port.outbound.countP fun r => r.completion == .queueFull

/-- A frame that is not taken is answered QUEUE_FULL, or counted as dropped (R191). -/
def State.refuseFrame (s : State) (f : Frame) : State :=
  if 8 ≤ queueFullReplies s then { s with port := { s.port with dropped := min 255 (s.port.dropped + 1) } }
  else
    let t := s.post ⟨f.byte 0, f.byte 1, .queueFull, bytesOf 1 s.port.dropped⟩
    { t with port := { t.port with dropped := 0 } }

/-- FRAME_ARRIVAL (R182, R190, R191): frame-select is deasserted after these bytes were strobed. -/
def execFrameArrival (strobed : List Byte) (s : State) : Host.Outcome State Fault Refusal :=
  if s.lines.resetLine then .next s
  else if s.lines.staleSelect then .next { s with lines := { s.lines with staleSelect := false } }
  else if strobed.isEmpty then .next s
  else
    let f : Frame := ⟨strobed.take maxFrame, decide (maxFrame < strobed.length)⟩
    .next (if s.outstanding < maxOutstanding then
        { s with port := { s.port with waiting := s.port.waiting ++ [f] } }
      else s.refuseFrame f)

/-- SEND_COMPLETION (R183): the frame being sent leaves the list, and the next begins. On an empty list no frame is being
sent, so no such event comes about, and nothing changes (DEDUCED, log entry 4). -/
def execSendCompletion (s : State) : Host.Outcome State Fault Refusal :=
  .next (if s.lines.resetLine then s
    else { s with port := { s.port with outbound := s.port.outbound.tail } })

/-! ## The reset line and power-on -/

/-- RESET_LINE (R208 and the reset-line rule of each block): the counters, the curves' copies and the image-abort line
stay; Page Memory's contents stay and no block reads them (R105, DESIGN CHOICE, log entry 21). With the line already asserted
the effects apply again (DEDUCED, log entry 31). -/
def execResetLine (s : State) : Host.Outcome State Fault Refusal :=
  .next { s with
    lines := { s.lines with resetLine := true, staleSelect := false }
    laneTable := LaneTable.initial
    directory := []
    composer := Composer.initial
    intake := .ready []
    memory := { s.memory with extents := [] }
    arbiter := Arbiter.initial
    gate := { Gate.initial with curves := s.gate.activateCurves.curves }
    port := { Port.initial with counters := s.port.counters } }

/-- RESET_LINE_RELEASE (R200, R182, R208): frames and image bytes are taken again; a frame whose frame-select was asserted
before the release is not. With the line not asserted there is nothing to release: the model changes nothing and ignores
the operand (DEDUCED, log entry 31). -/
def execResetLineRelease (frameSelect : Bool) (s : State) : Host.Outcome State Fault Refusal :=
  .next (if s.lines.resetLine then { s with lines := { s.lines with resetLine := false, staleSelect := frameSelect } }
    else s)

/-- POWER_ON (R209): no state of any block survives; the queue of commands and the count of free values are the model's
own. -/
def execPowerOn (s : State) : Host.Outcome State Fault Refusal :=
  .next { State.reset with pending := s.pending, free := s.free }

end Sys2Proof.Machine
end

