-- ==== Sys2Proof/Machine/Dispatch.lean ====
section
/-! DEFINITION. The one match from a command to its meaning. -/
namespace Sys2Proof.Machine

def exec (i : Instr) (s : State) : Host.Outcome State Fault Refusal :=
  match i with
  | .defineLane => Sys2Proof.Machine.execDefineLane s
  | .mapClass => Sys2Proof.Machine.execMapClass s
  | .lookup => Sys2Proof.Machine.execLookup s
  | .findNext => Sys2Proof.Machine.execFindNext s
  | .amend => Sys2Proof.Machine.execAmend s
  | .withdraw => Sys2Proof.Machine.execWithdraw s
  | .purge => Sys2Proof.Machine.execPurge s
  | .place => Sys2Proof.Machine.execPlace s
  | .openFiche => Sys2Proof.Machine.execOpenFiche s
  | .readFiche => Sys2Proof.Machine.execReadFiche s
  | .close => Sys2Proof.Machine.execClose s
  | .fence => Sys2Proof.Machine.execFence s
  | .requeue => Sys2Proof.Machine.execRequeue s
  | .release => Sys2Proof.Machine.execRelease s
  | .loadArbitration => Sys2Proof.Machine.execLoadArbitration s
  | .loadCurve => Sys2Proof.Machine.execLoadCurve s
  | .setFilm => Sys2Proof.Machine.execSetFilm s
  | .setStandby => Sys2Proof.Machine.execSetStandby s
  | .lampOn => Sys2Proof.Machine.execLampOn s
  | .lampOff => Sys2Proof.Machine.execLampOff s
  | .lampClear => Sys2Proof.Machine.execLampClear s
  | .readStatus => Sys2Proof.Machine.execReadStatus s
  | .readAttention => Sys2Proof.Machine.execReadAttention s
  | .setAttentionMask => Sys2Proof.Machine.execSetAttentionMask s
  | .readCounters => Sys2Proof.Machine.execReadCounters s
  | .reset => Sys2Proof.Machine.execReset s
  | .unknownRequest => Sys2Proof.Machine.execUnknownRequest s
  | .frameArrival strobed => Sys2Proof.Machine.execFrameArrival strobed s
  | .sendCompletion => Sys2Proof.Machine.execSendCompletion s
  | .resetLine => Sys2Proof.Machine.execResetLine s
  | .resetLineRelease frameSelect => Sys2Proof.Machine.execResetLineRelease frameSelect s
  | .powerOn => Sys2Proof.Machine.execPowerOn s
  | .imageHeader byte => Sys2Proof.Machine.execImageHeader byte s
  | .imageEnd byte => Sys2Proof.Machine.execImageEnd byte s
  | .discardingEnd byte => Sys2Proof.Machine.execDiscardingEnd byte s
  | .imageAbort => Sys2Proof.Machine.execImageAbort s
  | .imageWaitExpiry context => Sys2Proof.Machine.execImageWaitExpiry context s
  | .grantDecision => Sys2Proof.Machine.execGrantDecision s
  | .advanceDone => Sys2Proof.Machine.execAdvanceDone s
  | .titleDone => Sys2Proof.Machine.execTitleDone s
  | .cellDone => Sys2Proof.Machine.execCellDone s
  | .indexCellDone => Sys2Proof.Machine.execIndexCellDone s
  | .cutCompletion => Sys2Proof.Machine.execCutCompletion s
  | .spoilCompletion => Sys2Proof.Machine.execSpoilCompletion s
  | .lampStable => Sys2Proof.Machine.execLampStable s
  | .lampFault => Sys2Proof.Machine.execLampFault s
  | .jam => Sys2Proof.Machine.execJam s
  | .doorOpen => Sys2Proof.Machine.execDoorOpen s
  | .warmUpExpiry => Sys2Proof.Machine.execWarmUpExpiry s
  | .standbyExpiry => Sys2Proof.Machine.execStandbyExpiry s
  | .storageUpset buffer row group bit => Sys2Proof.Machine.execStorageUpset buffer row group bit s
  | .imageByteTaken byte => Sys2Proof.Machine.execImageByteTaken byte s
  | .imageAbortRelease => Sys2Proof.Machine.execImageAbortRelease s

end Sys2Proof.Machine
end

