-- ==== Sys2Proof/Machine/Step.lean ====
section
/-! DEFINITION. One step: the command at the front of the queue, or one second of time when none waits. -/
namespace Sys2Proof.Machine

/-- Takes the command at the front of the queue; with none waiting, a second passes (DESIGN CHOICE, log entry 3). -/
def step (s : State) : Host.Outcome State Fault Refusal :=
  match s.pending with
  | [] => .next s.second
  | c :: rest => exec c { s with pending := rest }

/-- Puts the command that a word spells at the front of the queue; no row has bits, so no word spells one (DEDUCED, log entry 29). -/
def State.withFetchWord (s : State) (nbits w : Nat) : State :=
  match decodeTableWord nbits w with
  | some c => { s with pending := c :: s.pending }
  | none => s

end Sys2Proof.Machine
end

