-- ==== Sys2Proof/WellFormed.lean ====
section
/-! DEFINITION. Which commands name things that exist. -/
namespace Sys2Proof

/-- A command is well formed when its operand names a context 0 to 7 (R41), or a stored bit of the 4096 buffers of
2048 by 1536 spots in groups of 72 bits (R94). Every other operand may take any value. -/
def Instr.wellFormed : Instr → Bool
  | .imageWaitExpiry context => decide (context < 8)
  | .storageUpset buffer row group bit =>
    decide (buffer < 4096) && decide (row < 1536) && decide (group < 256) && decide (bit < 72)
  | .defineLane | .mapClass | .lookup | .findNext | .amend | .withdraw | .purge | .place | .openFiche | .readFiche
  | .close | .fence | .requeue | .release | .loadArbitration | .loadCurve | .setFilm | .setStandby | .lampOn | .lampOff
  | .lampClear | .readStatus | .readAttention | .setAttentionMask | .readCounters | .reset | .unknownRequest
  | .frameArrival _ | .sendCompletion | .resetLine | .resetLineRelease _ | .powerOn | .imageHeader _ | .imageEnd _
  | .discardingEnd _ | .imageAbort | .grantDecision | .advanceDone | .titleDone | .cellDone | .indexCellDone
  | .cutCompletion | .spoilCompletion | .lampStable | .lampFault | .jam | .doorOpen | .warmUpExpiry | .standbyExpiry
  | .imageByteTaken _ | .imageAbortRelease => true

end Sys2Proof
end

