-- ==== Sys2Proof/Safety.lean ====
section
/-! DEFINITION. What counts as a safe run of the part, and the terms that statements about it use: the premise under which
a request is executed, what its execution leaves, and the invariants of the rules. -/
namespace Sys2Proof.Machine

/-! ## Safe steps -/

/-- A step that goes on: neither a fault nor a refusal. -/
def Continues (o : Host.Outcome State Fault Refusal) : Prop := ∃ t, o = .next t

/-- Every waiting command names things that exist. -/
def State.commandsWellFormed (s : State) : Prop := ∀ c ∈ s.pending, c.wellFormed = true

/-! ## The execution of a request -/

/-- The oldest waiting request is f, of this row, and passes the framing checks; the reset line is deasserted (R192,
R193, R208). -/
def Executes (s : State) (row : RequestRow) (f : Frame) (rest : List Frame) : Prop :=
  s.lines.resetLine = false ∧ s.port.waiting = f :: rest ∧ f.row = row ∧ f.framingRefusal = none

/-- The end of an execution: the reply joins the tail of the outbound list and the request leaves the queue (R192,
R185). -/
def State.answered (t : State) (f : Frame) (rest : List Frame) (completion : Completion) (body : List Byte) : State :=
  { t with port := { t.port with
      waiting := rest
      outbound := t.port.outbound ++ [⟨f.byte 0, f.byte 1, completion, body⟩] } }

/-- The command that executes the requests of a row. -/
def RequestRow.command : RequestRow → Instr
  | .defineLane => .defineLane | .mapClass => .mapClass | .lookup => .lookup | .findNext => .findNext | .amend => .amend
  | .withdraw => .withdraw | .purge => .purge | .place => .place | .openFiche => .openFiche | .readFiche => .readFiche
  | .close => .close | .fence => .fence | .requeue => .requeue | .release => .release
  | .loadArbitration => .loadArbitration | .loadCurve => .loadCurve | .setFilm => .setFilm | .setStandby => .setStandby
  | .lampOn => .lampOn | .lampOff => .lampOff | .lampClear => .lampClear | .readStatus => .readStatus
  | .readAttention => .readAttention | .setAttentionMask => .setAttentionMask | .readCounters => .readCounters
  | .reset => .reset | .unknown => .unknownRequest

/-- A PLACE that passes the five checks of R50: its class maps to lane l, whose definition d is enabled. -/
def PlacePasses (s : State) (f : Frame) (rest : List Frame) (cls : Fin 16) (span : Span) (l : LaneId) (d : LaneDef) :
    Prop :=
  Executes s .place f rest ∧ field f.body 6 1 = cls.val ∧ spanOf (field f.body 8 1) = some span ∧
  1 ≤ field f.body 7 1 ∧ field f.body 7 1 ≤ 64 ∧ s.laneTable.classMap.get cls = l ∧ s.enabledLane l = some d ∧
  s.record (fieldKey f.body 0) = none ∧ s.directory.length < 1024 ∧
  field f.body 7 1 * span.cells ≤ usableCells d.format d.k

/-- The record that a PLACE enters (R21): revision 0, no page released. -/
def placedRecord (f : Frame) (cls : Fin 16) (span : Span) (l : LaneId) (parts : List RecordPart) : Record :=
  ⟨fieldKey f.body 0, cls, l, span, field f.body 7 1, 0, parts, 0⟩

/-- The fiche that a lane opens with its pages placed at cell 0 as one part (R46, R53). -/
def freshFiche (l : LaneId) (d : LaneDef) (serial : Nat) (key : Key) (span : Span) (firstPage pages : Nat) : Fiche :=
  { newFiche l d serial none with
    cells := occupyRun (initialCells d.format d.k) key span 0 firstPage pages
    indexUsed := 1 }

/-- A part in the OK reply of PLACE (R60). -/
def placedPartBytes (c : CtxId) (serial : Nat) (format : Format) (firstCell firstPage pages : Nat) : List Byte :=
  bytesOf 1 c.val ++ bytesOf 3 serial ++ bytesOf 2 firstCell ++ textBytes (printedCell format firstCell) ++
  bytesOf 1 firstPage ++ bytesOf 2 pages

/-! ## Invariants -/

/-- R196: bits 22 and 23 of the flags and of the mask are always 0. -/
def Port.reservedBitsClear (p : Port) : Prop := reservedSet p.flags = false ∧ reservedSet p.mask = false

/-- R201. -/
def Counters.inRange (k : Counters) : Prop := ∀ n ∈ k.list, n ≤ 65535

/-- The fields whose range the rules fix apart from any request: class 0 names lane 0 (R16), next serials (R7), reserved
attention bits (R196), counters (R201), film count (R173). -/
def State.FieldsInRange (s : State) : Prop :=
  s.laneTable.classMap.get 0 = 0 ∧ (∀ l, (s.lane l).nextSerial ≤ 999999) ∧
  (∀ c f, s.fiche c = some f → f.serial ≤ 999999) ∧
  s.port.reservedBitsClear ∧ s.port.counters.inRange ∧ s.gate.film ≤ 4095

/-- The link's limits: outstanding requests (R190), pending fences (R136), QUEUE_FULL replies in the outbound list (R183),
the dropped count (R191). -/
def State.LinkInBounds (s : State) : Prop :=
  s.outstanding ≤ maxOutstanding ∧ s.port.fences.length ≤ maxFences ∧ queueFullReplies s ≤ 8 ∧ s.port.dropped ≤ 255

/-- R18: strictly ascending keys, at most 1024 records. -/
def State.DirectoryOrdered (s : State) : Prop :=
  s.directory.Pairwise (fun a b => a.key < b.key) ∧ s.directory.length ≤ 1024

/-- R95: no buffer is held twice, and every buffer held exists. -/
def State.BuffersHeldOnce (s : State) : Prop := s.heldBuffers.Nodup ∧ ∀ b ∈ s.heldBuffers, b < bufferCount

/-- R130 and R154: a context is in its lane's queue exactly while it is QUEUED, once, and the context under exposure is
the one that is EXPOSING. R176: attempts is 3 on a FAILED context and below 3 on any other. -/
def State.QueuesAndGateAgree (s : State) : Prop :=
  (∀ l c, c ∈ s.queue l ↔ ∃ f, s.fiche c = some f ∧ f.state = .queued ∧ f.lane = l) ∧
  (∀ l, (s.queue l).Nodup) ∧
  (∀ c, s.gate.state.underExposure = some c ↔ ∃ f, s.fiche c = some f ∧ f.state = .exposing) ∧
  ∀ c f, s.fiche c = some f → f.attempts ≤ 3 ∧ (f.attempts = 3 ↔ f.state = .failed)

/-- R42: a lane has at most one COMPOSING context. -/
def State.ComposesOnce (s : State) : Prop :=
  ∀ c d f g, s.fiche c = some f → s.fiche d = some g → f.state = .composing → g.state = .composing → f.lane = g.lane →
    c = d

/-- The parts that lie on a context (R44). -/
def State.partsOn (s : State) (c : CtxId) : Nat := (s.directory.map fun r => r.parts.countP fun p => p.ctx == c).sum

/-- R44: the index entries used of a context are the parts on it, none on a FREE one, and within the capacity of a fiche
with index cells. -/
def State.IndexEntriesAgree (s : State) : Prop :=
  (∀ c, s.partsOn c = ((s.fiche c).map (·.indexUsed)).getD 0) ∧
  ∀ c f, s.fiche c = some f → f.k ≠ 0 → f.indexUsed ≤ indexCapacity f.format f.k

end Sys2Proof.Machine
end

