-- ==== Sys2Proof/Certificates/Slice0/Obligations.lean ====
section
/-! DEFINITION. The statements for the provers. `Executes s row f rest` is the premise under which a request is executed, and
`answered` what every execution leaves on the link (Sys2Proof/Safety.lean). -/

open Sys2Proof Sys2Proof.Machine

/-! ## Steps, safety and resets -/

/-- A step runs the command at the front of the queue on the state with the queue's rest; on an empty queue one second
passes, and each running timer that shows more than 1 second loses one. The queue of commands (log entry 6) and the second
of an idle step (log entry 3) are the model's own. -/
def Obligations.StepRunsFrontCommand : Prop :=
  (∀ (c : Instr) (rest : List Instr) (s : State), s.pending = c :: rest →
    step s = exec c { s with pending := rest }) ∧
  ∀ (s : State) (second : Option Nat → Option Nat), s.pending = [] →
    (∀ t, second t = t.map fun n => if 1 < n then n - 1 else n) →
    step s = .next { s with
      composer := { s.composer with
        contexts := s.composer.contexts.map fun x => x.map fun f => { f with timer := second f.timer } }
      gate := { s.gate with warmUp := second s.gate.warmUp, standby := second s.gate.standby } }

/-- A command that names things that exist always answers a next state and leaves the queue alone; one that does not
faults (the fault is the model's choice, log entry 27). -/
def Obligations.WellFormedCommandsContinue : Prop :=
  (∀ (c : Instr) (s : State), c.wellFormed = true → ∃ t, exec c s = .next t ∧ t.pending = s.pending) ∧
  (∀ (n : Nat) (s : State), 8 ≤ n → exec (.imageWaitExpiry n) s = .fault .noSuchContext) ∧
  ∀ (buffer row group bit : Nat) (s : State), 4096 ≤ buffer ∨ 1536 ≤ row ∨ 256 ≤ group ∨ 72 ≤ bit →
    exec (.storageUpset buffer row group bit) s = .fault .noSuchStorage

/-- Power-on: no state of any block survives, and every value the chapters give for power-on. The two input lines taken
as deasserted and the empty Page Memory are the model's (log entries 6, 9). -/
def Obligations.PowerOnLeavesResetValues : Prop :=
  (∀ s : State, exec .powerOn s = .next { State.reset with pending := s.pending, free := s.free }) ∧
  (∀ l, State.reset.lane l = ⟨0, none⟩) ∧ (∀ c, State.reset.laneTable.classMap.get c = 0) ∧
  State.reset.directory = [] ∧ (∀ c, State.reset.fiche c = none) ∧ (∀ l, State.reset.queue l = []) ∧
  State.reset.intake = .ready [] ∧ State.reset.freePool = List.range' 0 4096 ∧ State.reset.memory.extents = [] ∧
  (∀ p, State.reset.arbiter.active.get p = BitVec.ofNat 8 (p.val % 4)) ∧
  (∀ p, State.reset.arbiter.pendingTable.get p = BitVec.ofNat 8 (p.val % 4)) ∧
  State.reset.arbiter.pendingFlag = false ∧ State.reset.arbiter.pointer = 0 ∧ State.reset.arbiter.lastLane = 3 ∧
  State.reset.gate.state = .idle ∧ State.reset.gate.step = none ∧ State.reset.gate.film = 0 ∧
  State.reset.gate.lamp = .off ∧ State.reset.gate.warmUp = none ∧ State.reset.gate.standby = none ∧
  State.reset.gate.standbyPeriod = 90 ∧
  (∀ n i, ((State.reset.gate.curves.get n).active.get i) = 255 * i.val ∧
    ((State.reset.gate.curves.get n).pendingCopy.get i) = 255 * i.val ∧
    (State.reset.gate.curves.get n).pendingFlag = false) ∧
  State.reset.port.waiting = [] ∧ State.reset.port.outbound = [] ∧ State.reset.port.fences = [] ∧
  State.reset.port.dropped = 0 ∧ State.reset.port.flags = 0#24 ∧ State.reset.port.mask = 0x3FFFFF#24 ∧
  ∀ n ∈ State.reset.port.counters.list, n = 0

/-- The reset line: every block at its reset value but for the device counters and the curves, whose flagged copies are
activated; its release takes frames again, but not one whose frame-select was already asserted. That Page Memory keeps
its stored spots is the model's choice (log entry 21); the level of frame-select as the release's operand (log entry 7) and
the effects of an assertion repeated (log entry 31) are its readings. -/
def Obligations.ResetLineForgetsTheWork : Prop :=
  (∀ s : State, exec .resetLine s = .next { s with
    lines := { s.lines with resetLine := true, staleSelect := false }
    laneTable := State.reset.laneTable
    directory := []
    composer := State.reset.composer
    intake := .ready []
    memory := { s.memory with extents := [] }
    arbiter := State.reset.arbiter
    gate := { State.reset.gate with
      curves := s.gate.curves.map fun k =>
        if k.pendingFlag then { k with active := k.pendingCopy, pendingFlag := false } else k }
    port := { State.reset.port with counters := s.port.counters } }) ∧
  (∀ s : State, s.lines.resetLine = true → ∀ select,
    exec (.resetLineRelease select) s = .next { s with
      lines := { s.lines with resetLine := false, staleSelect := select } }) ∧
  ∀ s : State, s.lines.resetLine = true → s.attentionLine = false ∧ s.holdLine = true

/-! ## The shared operations the later statements name -/

/-- The updates of a context, a lane queue, a next serial, a flag and an OCCUPIED cell: each changes that item alone. What
every event that may change the queues, the film count, the lamp or the gate ends with: FILM_OUT is set exactly
when its condition begins, and a lamp in STANDBY wakes exactly when the gate is IDLE and a fiche is queued. A fiche joins
its lane's queue at the tail with its timer stopped; one put back joins at the head with cells done 0. -/
def Obligations.QueuesFilmOutAndLampWake : Prop :=
  (∀ (s : State) (c : CtxId) (x : Option Fiche) (l : LaneId) (q : List CtxId) (n : Nat),
    (s.setContext c x = { s with composer := { s.composer with contexts := (s.setContext c x).composer.contexts } } ∧
      ∀ d, (s.setContext c x).fiche d = if d = c then x else s.fiche d) ∧
    (s.setQueue l q = { s with composer := { s.composer with queues := (s.setQueue l q).composer.queues } } ∧
      ∀ m, (s.setQueue l q).queue m = if m = l then q else s.queue m) ∧
    (s.setNextSerial l n = { s with laneTable := { s.laneTable with lanes := (s.setNextSerial l n).laneTable.lanes } } ∧
      ∀ m, (s.setNextSerial l n).lane m = if m = l then { s.lane l with nextSerial := n } else s.lane m) ∧
    (∀ g, s.modifyFiche c g = s.setContext c ((s.fiche c).map g)) ∧
    (∀ bit, s.setFlag bit = { s with port := { s.port with flags := s.port.flags ||| BitVec.twoPow 24 bit } }) ∧
    ∀ flag, s.setLaneFlag l flag = s.setFlag (laneFlagBit l flag)) ∧
  (∀ (g : Occupied → Occupied) (o : Occupied), Cell.modify g .free = .free ∧ Cell.modify g .index = .index ∧
    Cell.modify g (.occupied o) = .occupied (g o)) ∧
  (∀ (s : State) (c : CtxId) (x : Fiche), s.fiche c = some x →
    s.queueFiche c = (s.setContext c (some { x with state := .queued, timer := none })).setQueue x.lane
      (s.queue x.lane ++ [c]) ∧
    s.putBack c = (s.setContext c (some { x with state := .queued, cellsDone := 0 })).setQueue x.lane
      (c :: s.queue x.lane)) ∧
  ∀ before after : State,
    before.conclude after = { after with
      port := if (after.gate.film = 0 ∧ ∃ l, after.queue l ≠ []) ∧ ¬(before.gate.film = 0 ∧ ∃ l, before.queue l ≠ [])
        then { after.port with flags := after.port.flags ||| BitVec.twoPow 24 19 } else after.port
      gate := if after.gate.lamp = .standby ∧ after.gate.state = .idle ∧ ∃ l, after.queue l ≠ []
        then { after.gate with lamp := .warming, warmUp := some 120, standby := none } else after.gate }

/-- The stall test: a stalled transfer takes the s lowest buffers of the pool, written extents none, exactly when the
pool holds s; any other state is left as it is. The pool is the buffers that neither the transfer in progress nor a cell
holds, lowest first; and setting a written extent changes that buffer's alone. -/
def Obligations.StallTestTakesLowestBuffers : Prop :=
  (∀ (s : State) (m : Matched), s.intake = .stalled m → m.span.cells ≤ s.freePool.length →
    s.stallTest = { s with
      intake := .receiving m (s.freePool.take m.span.cells) 0 [] []
      memory := (s.freePool.take m.span.cells).foldl (fun mem b => mem.setExtent b none) s.memory }) ∧
  (∀ (s : State) (m : Matched), s.intake = .stalled m → s.freePool.length < m.span.cells → s.stallTest = s) ∧
  (∀ s : State, (∀ m, s.intake ≠ .stalled m) → s.stallTest = s) ∧
  (∀ s : State, s.freePool = (List.range' 0 4096).filter fun b => !s.heldBuffers.contains b) ∧
  (∀ (s : State) (b : Nat), b ∈ s.heldBuffers ↔
    (∃ m buffers lines line sums, s.intake = .receiving m buffers lines line sums ∧ b ∈ buffers) ∨
      ∃ (c : CtxId) (x : Fiche) (i : Nat) (o : Occupied), s.fiche c = some x ∧
        x.cells[i]? = some (.occupied o) ∧ o.buffer = some b) ∧
  ∀ (m : Memory) (buffer : Nat) (e : Option Format), m.wf = true →
    m.setExtent buffer e = { m with extents := (m.setExtent buffer e).extents } ∧
    ∀ b, (m.setExtent buffer e).extent b = if b = buffer then e else m.extent b

/-! ## Lane Table -/

/-- DEFINE LANE that is not refused stores the checked and adjusted definition and keeps or sets the next serial. The reply
gives the stored definition in the layout of the request, the serial action byte 0 and the serial value bytes carrying the
next serial, and the adjustments. The first clause gives the selector codes. The column byte of a reply without a serial
position is a free value (log entry 12). -/
def Obligations.DefineLaneStoresDefinition : Prop :=
  ((∀ n v, yesNoOf n = some v ↔ n = if v then 1 else 0) ∧ (∀ n v, formatOf n = some v ↔ n = v.code) ∧
    (∀ n v, splitOf n = some v ↔ n = v.code) ∧ (∀ n v, titleSizeOf n = some v ↔ n = v.code) ∧
    (∀ n v, polarityOf n = some v ↔ n = v.code) ∧
    [Format.g1, .g2, .g3, .g4].map Format.code = [1, 2, 3, 4] ∧ [SplitPolicy.keep, .allow].map SplitPolicy.code = [0, 1] ∧
    [TitleSize.normal, .wide, .tall, .large].map TitleSize.code = [0, 1, 2, 3] ∧
    [Polarity.negative, .positive].map Polarity.code = [0, 1] ∧
    (∀ column, serialPositionOf 0 column = some none ∧ (column ≤ 39 →
      serialPositionOf 1 column = some (some ⟨.line1, column⟩) ∧
      serialPositionOf 2 column = some (some ⟨.line2, column⟩))) ∧
    ∀ value, serialActionOf 0 value = some none ∧ (value ≤ 999999 → serialActionOf 1 value = some (some value))) ∧
  ∀ (s : State) (f : Frame) (rest : List Frame) (l : LaneId) (enabled : Bool) (format : Format) (k curve : Fin 4)
    (split : SplitPolicy) (size1 size2 : TitleSize) (position : Option SerialPosition) (action : Option Nat)
    (polarity : Polarity) (text1 text2 : Text),
    Executes s .defineLane f rest →
    text1 = (fieldText f.body 23 (field f.body 5 1)).map (fun c => if c < 32 ∨ 126 < c then 63 else c) →
    text2 = (fieldText f.body (23 + field f.body 5 1) (field f.body 7 1)).map
      (fun c => if c < 32 ∨ 126 < c then 63 else c) →
    field f.body 0 1 = l.val → yesNoOf (field f.body 1 1) = some enabled → formatOf (field f.body 2 1) = some format →
    field f.body 3 1 = k.val → splitOf (field f.body 4 1) = some split →
    field f.body 5 1 ≤ 40 → titleSizeOf (field f.body 6 1) = some size1 →
    field f.body 7 1 ≤ 40 → titleSizeOf (field f.body 8 1) = some size2 →
    serialPositionOf (field f.body 10 1) (field f.body 11 1) = some position →
    serialActionOf (field f.body 12 1) (field f.body 13 3) = some action →
    polarityOf (field f.body 16 1) = some polarity → field f.body 17 1 = curve.val →
    (enabled = false → ∀ c x, s.fiche c = some x → x.lane ≠ l) →
    (action ≠ none → s.composingContext l = none) →
    ∃ column, (∀ p, position = some p → column = BitVec.ofNat 8 p.column) ∧
      exec .defineLane s = .next
        (({ s with
            laneTable := { s.laneTable with
              lanes := s.laneTable.lanes.set l.val ⟨action.getD (s.lane l).nextSerial, some
                { enabled := enabled, format := format, k := k, split := split
                  line1 := ⟨text1, size1⟩, line2 := ⟨text2, size2⟩
                  spacing := min 15 (field f.body 9 1), serialPosition := position, polarity := polarity
                  curve := curve, gain := max 128 (min 4095 (field f.body 18 2)), bias := min 2047 (field f.body 20 2)
                  imageWait := field f.body 22 1 }⟩ }
            free := s.free + if position = none then 1 else 0 } : State).answered f rest .ok
          (bytesOf 1 l.val ++ [if enabled then 1 else 0] ++ bytesOf 1 format.code ++ bytesOf 1 k.val ++ bytesOf 1 split.code ++
            bytesOf 1 text1.length ++ bytesOf 1 size1.code ++ bytesOf 1 text2.length ++ bytesOf 1 size2.code ++
            bytesOf 1 (min 15 (field f.body 9 1)) ++
            (match position with
              | none => ([0] : List Byte)
              | some p => if p.line = .line1 then [1] else [2]) ++
            [column] ++ [0] ++ bytesOf 3 (action.getD (s.lane l).nextSerial) ++ bytesOf 1 polarity.code ++
            bytesOf 1 curve.val ++ bytesOf 2 (max 128 (min 4095 (field f.body 18 2))) ++
            bytesOf 2 (min 2047 (field f.body 20 2)) ++ bytesOf 1 (field f.body 22 1) ++
            text1.map (BitVec.ofNat 8) ++ text2.map (BitVec.ofNat 8) ++
            bytesOf 1 (if field f.body 18 2 < 128 then 1 else if 4095 < field f.body 18 2 then 2 else 0) ++
            [if 2047 < field f.body 20 2 then 1 else 0] ++ [if 15 < field f.body 9 1 then 1 else 0] ++
            bytesOf 1 ((fieldText f.body 23 (field f.body 5 1) ++
              fieldText f.body (23 + field f.body 5 1) (field f.body 7 1)).countP fun c => decide (c < 32 ∨ 126 < c))))

/-- DEFINE LANE with a selector or a title template out of range is refused MALFORMED, and one that passes but disables a
lane with live contexts, or sets the serial of a composing lane, is refused BUSY. -/
def Obligations.DefineLaneRefusals : Prop :=
  ∀ (s : State) (f : Frame) (rest : List Frame) (outOfRange : Prop), Executes s .defineLane f rest →
    (outOfRange ↔ (4 ≤ field f.body 0 1 ∨ 2 ≤ field f.body 1 1 ∨ field f.body 2 1 = 0 ∨ 5 ≤ field f.body 2 1 ∨
      4 ≤ field f.body 3 1 ∨ 2 ≤ field f.body 4 1 ∨ 41 ≤ field f.body 5 1 ∨ 4 ≤ field f.body 6 1 ∨
      41 ≤ field f.body 7 1 ∨ 4 ≤ field f.body 8 1 ∨ 3 ≤ field f.body 10 1 ∨
      (field f.body 10 1 ≠ 0 ∧ 40 ≤ field f.body 11 1) ∨ 2 ≤ field f.body 12 1 ∨
      (field f.body 12 1 = 1 ∧ 1000000 ≤ field f.body 13 3) ∨ 2 ≤ field f.body 16 1 ∨ 4 ≤ field f.body 17 1)) →
    (outOfRange → exec .defineLane s = .next (s.answered f rest .malformed [])) ∧
    (¬outOfRange → ∀ l : LaneId, field f.body 0 1 = l.val →
      (field f.body 1 1 = 0 ∧ ∃ c x, s.fiche c = some x ∧ x.lane = l) ∨
        (field f.body 12 1 = 1 ∧ ∃ c x, s.fiche c = some x ∧ x.lane = l ∧ x.state = .composing) →
      exec .defineLane s = .next (s.answered f rest .busy []))

/-- MAP CLASS: its three MALFORMED cases, and otherwise the entry of the class names the lane, the reply giving the lane it
named before. -/
def Obligations.MapClassSetsOneEntry : Prop :=
  ∀ (s : State) (f : Frame) (rest : List Frame), Executes s .mapClass f rest →
    (16 ≤ field f.body 0 1 ∨ 4 ≤ field f.body 1 1 ∨ (field f.body 0 1 = 0 ∧ field f.body 1 1 ≠ 0) →
      exec .mapClass s = .next (s.answered f rest .malformed [])) ∧
    ∀ (c : Fin 16) (l : LaneId), field f.body 0 1 = c.val → field f.body 1 1 = l.val → (c = 0 → l = 0) →
      exec .mapClass s = .next
        (({ s with laneTable := { s.laneTable with classMap := s.laneTable.classMap.set c.val l } } : State).answered
          f rest .ok (bytesOf 1 c.val ++ bytesOf 1 l.val ++ bytesOf 1 (s.laneTable.classMap.get c).val))

/-! ## Placement Directory -/

/-- The record of a key and the cells per page; whether every part of a record is on a COMPOSING context; the entries of a run
of cells. The derived items of a record: its state is that of its least advanced part, pages lost, split, the four flags of
a part and its pages present, those whose cells all are PRESENT; and the condition of AMEND and WITHDRAW, which holds when no
test is named or some named test holds. -/
def Obligations.DerivedRecordItems : Prop :=
  (∀ (s : State) (key : Key), (∀ r, s.record key = some r → r ∈ s.directory ∧ r.key = key) ∧
    (s.record key = none ↔ ∀ r ∈ s.directory, r.key ≠ key)) ∧
  (∀ (s : State) (r : Record), s.allComposing r = true ↔
    ∀ p ∈ r.parts, ∃ x, s.fiche p.ctx = some x ∧ x.state = .composing) ∧
  (Span.cells .single = 1 ∧ Span.cells .wide = 2) ∧
  (∀ (x : Fiche) (first length : Nat) (o : Occupied), o ∈ x.entriesOf first length ↔
    ∃ i, first ≤ i ∧ i < first + length ∧ x.cells[i]? = some (.occupied o)) ∧
  (∀ (s : State) (r : Record) (p : RecordPart) (x : Fiche) (image : ImageState), s.fiche p.ctx = some x →
    (s.partHas r p image = true ↔ ∃ o ∈ x.entriesOf p.firstCell (p.pages * r.span.cells), o.image = image)) ∧
  (∀ (current expected : BitVec 16) (tests : Nat), conditionHolds current expected tests = true ↔
    tests = 0 ∨ (tests.testBit 0 = true ∧ current.toNat < expected.toNat) ∨
      (tests.testBit 1 = true ∧ expected.toNat < current.toNat) ∨
      (tests.testBit 2 = true ∧ current.toNat = expected.toNat)) ∧
  (∀ (s : State) (r : Record), s.recordState r = .placed ↔
    ∃ p ∈ r.parts, ∃ x, s.fiche p.ctx = some x ∧ x.state = .composing) ∧
  (∀ (s : State) (r : Record), r.parts ≠ [] → (s.recordState r = .exposed ↔
    ∀ p ∈ r.parts, ∃ x, s.fiche p.ctx = some x ∧ x.state = .exposed)) ∧
  (∀ r : Record, r.pagesLost = true ↔ (r.parts.map (·.pages)).sum + r.released < r.pageCount) ∧
  (∀ (r : Record) (p : RecordPart), r.parts = [p] → (r.isSplit = true ↔ p.firstPage ≠ 1 ∨ p.pages < r.pageCount)) ∧
  (∀ (r : Record) (p q : RecordPart), r.parts = [p, q] → r.isSplit = true) ∧
  (∀ (s : State) (r : Record) (p : RecordPart) (x : Fiche) (o : Nat → Nat → Occupied), s.fiche p.ctx = some x →
    (∀ i < p.pages, ∀ j < r.span.cells, x.cells[p.firstCell + i * r.span.cells + j]? = some (.occupied (o i j)) ∧
      (o i j).page = p.firstPage + i) →
    s.pagesPresent r p = (List.range p.pages).countP fun i =>
      (List.range r.span.cells).all fun j => (o i j).image == .present) ∧
  ∀ (s : State) (r : Record) (p : RecordPart) (x : Fiche), s.fiche p.ctx = some x →
    s.partFlags r p =
      (if ∃ o ∈ x.entriesOf p.firstCell (p.pages * r.span.cells), o.image = .missing then 1 else 0) +
      (if ∃ o ∈ x.entriesOf p.firstCell (p.pages * r.span.cells), o.image = .damaged then 2 else 0) +
      (if ∃ o ∈ x.entriesOf p.firstCell (p.pages * r.span.cells), o.cropped = true then 4 else 0) +
      if ∃ o ∈ x.entriesOf p.firstCell (p.pages * r.span.cells), o.saturated = true then 8 else 0

/-- LOOKUP of a key held: the record's items in the order of the rule, and nothing changes. The widths of the page counts
and of the released pages are the model's reading (log entry 15), and so is one byte each for the span, the record state and
the part flags (log entry 32). -/
def Obligations.LookupReportsHeldRecord : Prop :=
  ([RecordState.placed, .frozen, .exposed].map RecordState.code = [0, 1, 2] ∧
    [Span.single, .wide].map Span.code = [0, 1] ∧
    (∀ text : Text, textBytes text = text.map (BitVec.ofNat 8)) ∧
    ∀ (s : State) (c : CtxId) (x : Fiche), s.fiche c = some x → s.formatOf c = x.format) ∧
  (∀ (s : State) (r : Record), s.recordBytes r =
    bytesOf 6 r.key.toNat ++ bytesOf 1 r.cls.val ++ bytesOf 1 r.lane.val ++ bytesOf 1 r.span.code ++
      bytesOf 1 r.pageCount ++ bytesOf 2 r.revision.toNat ++ bytesOf 2 r.released ++
      bytesOf 1 (s.recordState r).code ++ [if r.pagesLost then 1 else 0] ++ [if r.isSplit then 1 else 0] ++
      bytesOf 1 r.parts.length ++
      r.parts.flatMap fun p =>
        bytesOf 1 p.ctx.val ++ bytesOf 3 p.serial ++ bytesOf 2 p.firstCell ++
        textBytes (printedCell (s.formatOf p.ctx) p.firstCell) ++ bytesOf 1 p.firstPage ++ bytesOf 2 p.pages ++
        bytesOf 1 (s.partFlags r p) ++ bytesOf 2 (s.pagesPresent r p) ++
        match s.fiche p.ctx with
        | some x => if x.state = .exposing then 1 :: bytesOf 2 x.cellsDone else [0, 0, 0]
        | none => [0, 0, 0]) ∧
  ∀ (s : State) (f : Frame) (rest : List Frame) (r : Record), Executes s .lookup f rest →
    s.record (fieldKey f.body 0) = some r →
    exec .lookup s = .next (s.answered f rest .ok (s.recordBytes r))

/-- LOOKUP of an absent key: EMPTY, BEFORE, AFTER or BETWEEN with the neighbouring keys, and nothing changes. One byte for
the position indication is the model's reading (log entry 32). -/
def Obligations.LookupPlacesAbsentKey : Prop :=
  ∀ (s : State) (f : Frame) (rest : List Frame) (key : Key), Executes s .lookup f rest → s.DirectoryOrdered →
    fieldKey f.body 0 = key → (∀ r ∈ s.directory, r.key ≠ key) →
    (s.directory = [] →
      exec .lookup s = .next (s.answered f rest .notFound ([0] ++ List.replicate 7 0 ++ List.replicate 7 0))) ∧
    (∀ b ∈ s.directory, key < b.key → (∀ r ∈ s.directory, b.key ≤ r.key) →
      exec .lookup s = .next (s.answered f rest .notFound
        ([1] ++ List.replicate 7 0 ++ ([1] ++ bytesOf 6 b.key.toNat)))) ∧
    (∀ a ∈ s.directory, a.key < key → (∀ r ∈ s.directory, r.key ≤ a.key) →
      exec .lookup s = .next (s.answered f rest .notFound
        ([2] ++ ([1] ++ bytesOf 6 a.key.toNat) ++ List.replicate 7 0))) ∧
    ∀ a ∈ s.directory, ∀ b ∈ s.directory, a.key < key → key < b.key →
      (∀ r ∈ s.directory, r.key ≤ a.key ∨ b.key ≤ r.key) →
      exec .lookup s = .next (s.answered f rest .notFound
        ([3] ++ ([1] ++ bytesOf 6 a.key.toNat) ++ ([1] ++ bytesOf 6 b.key.toNat)))

/-- FIND NEXT: MALFORMED, or the first record above the key that passes both filters, or NOT_FOUND; nothing changes. The record
is given in the form LOOKUP gives it, whatever the widths of that form. -/
def Obligations.FindNextGivesFirstAbove : Prop :=
  ∀ (s : State) (f : Frame) (rest : List Frame), Executes s .findNext f rest →
    ((3 < field f.body 6 1 ∧ field f.body 6 1 ≠ 255) ∨ field f.body 7 1 = 0 ∨ 7 < field f.body 7 1 →
      exec .findNext s = .next (s.answered f rest .malformed [])) ∧
    (field f.body 6 1 ≤ 3 ∨ field f.body 6 1 = 255 → field f.body 7 1 ≠ 0 → field f.body 7 1 ≤ 7 → s.DirectoryOrdered →
      (∀ r ∈ s.directory, fieldKey f.body 0 < r.key →
        (field f.body 6 1 = 255 ∨ r.lane.val = field f.body 6 1) →
        (field f.body 7 1).testBit (s.recordState r).code = true →
        (∀ q ∈ s.directory, fieldKey f.body 0 < q.key → (field f.body 6 1 = 255 ∨ q.lane.val = field f.body 6 1) →
          (field f.body 7 1).testBit (s.recordState q).code = true → r.key ≤ q.key) →
        exec .findNext s = .next (s.answered f rest .ok (s.recordBytes r))) ∧
      ((∀ q ∈ s.directory, fieldKey f.body 0 < q.key → (field f.body 6 1 = 255 ∨ q.lane.val = field f.body 6 1) →
          (field f.body 7 1).testBit (s.recordState q).code = false) →
        exec .findNext s = .next (s.answered f rest .notFound [])))

/-- The refusals of AMEND in their order; the first that fails refuses the request and nothing changes. -/
def Obligations.AmendRefusalsInOrder : Prop :=
  ∀ (s : State) (f : Frame) (rest : List Frame), Executes s .amend f rest →
    (field f.body 6 1 = 0 ∨ 3 < field f.body 6 1 ∨
        ((field f.body 6 1).testBit 1 = true ∧ (field f.body 13 1 = 0 ∨ 64 < field f.body 13 1)) ∨
        7 < field f.body 16 1 →
      exec .amend s = .next (s.answered f rest .malformed [])) ∧
    (field f.body 6 1 ≠ 0 → field f.body 6 1 ≤ 3 →
      ((field f.body 6 1).testBit 1 = true → 1 ≤ field f.body 13 1 ∧ field f.body 13 1 ≤ 64) → field f.body 16 1 ≤ 7 →
      (s.record (fieldKey f.body 0) = none → exec .amend s = .next (s.answered f rest .notFound [])) ∧
      ∀ r, s.record (fieldKey f.body 0) = some r →
        (s.allComposing r = false → exec .amend s = .next (s.answered f rest .frozen [])) ∧
        (s.allComposing r = true →
          (conditionHolds r.revision (BitVec.ofNat 16 (field f.body 14 2)) (field f.body 16 1) = false →
            exec .amend s = .next (s.answered f rest .condition (bytesOf 2 r.revision.toNat))) ∧
          (conditionHolds r.revision (BitVec.ofNat 16 (field f.body 14 2)) (field f.body 16 1) = true →
            ((field f.body 6 1).testBit 0 = true ∧ fieldKey f.body 7 ≠ fieldKey f.body 0 ∧
                s.record (fieldKey f.body 7) ≠ none →
              exec .amend s = .next (s.answered f rest .duplicate [])) ∧
            (((field f.body 6 1).testBit 0 = true → fieldKey f.body 7 = fieldKey f.body 0 ∨
                s.record (fieldKey f.body 7) = none) →
              (field f.body 6 1).testBit 1 = true → field f.body 13 1 ≠ r.pageCount →
              (r.isSplit = true → exec .amend s = .next (s.answered f rest .splitFixed [])) ∧
              ∀ p x, r.isSplit = false → r.parts = [p] → s.fiche p.ctx = some x →
                r.pageCount < field f.body 13 1 →
                runIsFree x.cells (usableCells x.format x.k) (p.firstCell + r.pageCount * r.span.cells)
                  ((field f.body 13 1 - r.pageCount) * r.span.cells) = false →
                (∀ g, g % r.span.cells = 0 → runIsFree (freeRun x.cells p.firstCell (r.pageCount * r.span.cells))
                  (usableCells x.format x.k) g (field f.body 13 1 * r.span.cells) = false) →
                exec .amend s = .next (s.answered f rest .noRoom [])))))

/-- AMEND that carries a new key, alone or with a page count equal to the record's: the record stands under the new key at
its place in key order with its revision one higher, its cells name the new key, and nothing else changes. The widths of
the reply's items are the model's reading (log entry 15). -/
def Obligations.AmendRekeysRecord : Prop :=
  ∀ (s : State) (f : Frame) (rest : List Frame) (r : Record), Executes s .amend f rest →
    field f.body 6 1 = 1 ∨
      (field f.body 6 1 = 3 ∧ field f.body 13 1 = r.pageCount ∧ 1 ≤ r.pageCount ∧ r.pageCount ≤ 64) →
    field f.body 16 1 ≤ 7 → s.record (fieldKey f.body 0) = some r → s.allComposing r = true →
    conditionHolds r.revision (BitVec.ofNat 16 (field f.body 14 2)) (field f.body 16 1) = true →
    (fieldKey f.body 7 = r.key ∨ s.record (fieldKey f.body 7) = none) →
    ∃ t : State,
      exec .amend s = .next (t.stallTest.answered f rest .ok
        (bytesOf 6 (fieldKey f.body 7).toNat ++ bytesOf 1 r.pageCount ++ bytesOf 2 (r.revision + 1).toNat ++
          bytesOf 2 ((r.parts.head?.map (·.firstCell)).getD 0))) ∧
      t = { s with
        directory := insertRecord { r with key := fieldKey f.body 7, revision := r.revision + 1 }
          (s.directory.filter fun q => q.key != r.key)
        composer := { s.composer with contexts := t.composer.contexts } } ∧
      ∀ c, t.fiche c = (s.fiche c).map fun x =>
        if ∃ p ∈ r.parts, p.ctx = c then
          { x with cells := x.cells.map (Cell.modify fun o =>
              if o.key = r.key then { o with key := fieldKey f.body 7 } else o) }
        else x

/-- AMEND that carries a page count. Equal to the record's: only the revision advances. Another, on a record whose one part
can shrink or grow where it lies: the cells past the new count become FREE, or the cells of the new pages OCCUPIED and
AWAITING; the record takes the count, the new key if one is carried too, and its next revision; nothing else changes. The
widths of the reply's items are the model's reading (log entry 15). -/
def Obligations.AmendResizesInPlace : Prop :=
  (∀ (s : State) (f : Frame) (rest : List Frame) (r : Record), Executes s .amend f rest →
    field f.body 6 1 = 2 → field f.body 13 1 = r.pageCount → 1 ≤ r.pageCount → r.pageCount ≤ 64 →
    field f.body 16 1 ≤ 7 → s.record (fieldKey f.body 0) = some r → s.allComposing r = true →
    conditionHolds r.revision (BitVec.ofNat 16 (field f.body 14 2)) (field f.body 16 1) = true →
    exec .amend s = .next ((({ s with directory := s.directory.map fun q =>
        if q.key = r.key then { q with revision := q.revision + 1 } else q } : State).stallTest).answered f rest .ok
      (bytesOf 6 r.key.toNat ++ bytesOf 1 r.pageCount ++ bytesOf 2 (r.revision + 1).toNat ++
        bytesOf 2 ((r.parts.head?.map (·.firstCell)).getD 0)))) ∧
  ∀ (s : State) (f : Frame) (rest : List Frame) (r : Record) (p : RecordPart) (x : Fiche) (new : Key),
    Executes s .amend f rest →
    (field f.body 6 1 = 2 ∧ new = r.key) ∨
      (field f.body 6 1 = 3 ∧ new = fieldKey f.body 7 ∧ (new = r.key ∨ s.record new = none)) →
    1 ≤ field f.body 13 1 → field f.body 13 1 ≤ 64 → field f.body 16 1 ≤ 7 →
    s.record (fieldKey f.body 0) = some r → s.allComposing r = true →
    conditionHolds r.revision (BitVec.ofNat 16 (field f.body 14 2)) (field f.body 16 1) = true →
    r.isSplit = false → r.parts = [p] → s.fiche p.ctx = some x → field f.body 13 1 ≠ r.pageCount →
    (r.pageCount < field f.body 13 1 →
      runIsFree x.cells (usableCells x.format x.k) (p.firstCell + r.pageCount * r.span.cells)
        ((field f.body 13 1 - r.pageCount) * r.span.cells) = true) →
    ∀ amended : Record, amended = { r with
      key := new, pageCount := field f.body 13 1, parts := [{ p with pages := field f.body 13 1 }]
      revision := r.revision + 1 } →
    ∃ cells : List Cell,
      exec .amend s = .next ((({ s.setContext p.ctx (some { x with cells := cells }) with
          directory := if field f.body 6 1 = 2 then s.directory.map fun q => if q.key = r.key then amended else q
            else insertRecord amended (s.directory.filter fun q => q.key != r.key) } : State).stallTest).answered
          f rest .ok
        (bytesOf 6 new.toNat ++ bytesOf 1 (field f.body 13 1) ++ bytesOf 2 (r.revision + 1).toNat ++
          bytesOf 2 p.firstCell)) ∧
      cells.length = x.cells.length ∧
      ∀ i e, x.cells[i]? = some e → cells[i]? = some (
        if p.firstCell + field f.body 13 1 * r.span.cells ≤ i ∧ i < p.firstCell + r.pageCount * r.span.cells then .free
        else if p.firstCell + r.pageCount * r.span.cells ≤ i ∧ i < p.firstCell + field f.body 13 1 * r.span.cells then
          .occupied
            { key := new
              page := r.pageCount + 1 + (i - (p.firstCell + r.pageCount * r.span.cells)) / r.span.cells
              half := match r.span with
                | .single => .whole
                | .wide => if (i - (p.firstCell + r.pageCount * r.span.cells)) % 2 = 0 then .left else .right
              image := .awaiting, buffer := none, cropped := false, saturated := false }
        else e.modify fun o => if o.key = r.key then { o with key := new } else o)

/-- AMEND that grows a record which cannot grow in place: it moves to the lowest run that first fit finds with its own
cells treated as FREE, each page with its image and buffer; the other cells of the old run become FREE; and it takes the
new key if one is carried too. The widths of the reply's items are the model's reading (log entry 15). -/
def Obligations.AmendMovesGrownRecord : Prop :=
  ∀ (s : State) (f : Frame) (rest : List Frame) (r : Record) (p : RecordPart) (x : Fiche) (g : Nat) (new : Key),
    Executes s .amend f rest →
    (field f.body 6 1 = 2 ∧ new = r.key) ∨
      (field f.body 6 1 = 3 ∧ new = fieldKey f.body 7 ∧ (new = r.key ∨ s.record new = none)) →
    1 ≤ field f.body 13 1 → field f.body 13 1 ≤ 64 → field f.body 16 1 ≤ 7 →
    s.record (fieldKey f.body 0) = some r → s.allComposing r = true →
    conditionHolds r.revision (BitVec.ofNat 16 (field f.body 14 2)) (field f.body 16 1) = true →
    r.isSplit = false → r.parts = [p] → s.fiche p.ctx = some x → r.pageCount < field f.body 13 1 →
    runIsFree x.cells (usableCells x.format x.k) (p.firstCell + r.pageCount * r.span.cells)
      ((field f.body 13 1 - r.pageCount) * r.span.cells) = false →
    g % r.span.cells = 0 →
    runIsFree (freeRun x.cells p.firstCell (r.pageCount * r.span.cells)) (usableCells x.format x.k) g
      (field f.body 13 1 * r.span.cells) = true →
    (∀ h < g, h % r.span.cells = 0 → runIsFree (freeRun x.cells p.firstCell (r.pageCount * r.span.cells))
      (usableCells x.format x.k) h (field f.body 13 1 * r.span.cells) = false) →
    p.firstCell + r.pageCount * r.span.cells ≤ x.cells.length →
    ∀ (amended : Record) (renamed : Cell → Cell), amended = { r with
      key := new, pageCount := field f.body 13 1, revision := r.revision + 1
      parts := [{ p with firstCell := g, pages := field f.body 13 1 }] } →
    (∀ e : Cell, renamed e = e.modify fun o => if o.key = r.key then { o with key := new } else o) →
    ∃ cells : List Cell,
      exec .amend s = .next ((({ s.setContext p.ctx (some { x with cells := cells }) with
          directory := if field f.body 6 1 = 2 then s.directory.map fun q => if q.key = r.key then amended else q
            else insertRecord amended (s.directory.filter fun q => q.key != r.key) } : State).stallTest).answered
          f rest .ok
        (bytesOf 6 new.toNat ++ bytesOf 1 (field f.body 13 1) ++ bytesOf 2 (r.revision + 1).toNat ++
          bytesOf 2 g)) ∧
      cells.length = x.cells.length ∧
      (∀ j < r.pageCount * r.span.cells, g + j < x.cells.length →
        cells[g + j]? = x.cells[p.firstCell + j]?.map renamed) ∧
      (∀ i e, x.cells[i]? = some e → g + r.pageCount * r.span.cells ≤ i → i < g + field f.body 13 1 * r.span.cells →
        cells[i]? = some (.occupied
          { key := new, page := r.pageCount + 1 + (i - (g + r.pageCount * r.span.cells)) / r.span.cells
            half := match r.span with
              | .single => .whole
              | .wide => if (i - (g + r.pageCount * r.span.cells)) % 2 = 0 then .left else .right
            image := .awaiting, buffer := none, cropped := false, saturated := false })) ∧
      ∀ i e, x.cells[i]? = some e → (i < g ∨ g + field f.body 13 1 * r.span.cells ≤ i) →
        cells[i]? = some (if p.firstCell ≤ i ∧ i < p.firstCell + r.pageCount * r.span.cells then .free else renamed e)

/-- The buffers that the cells of a record hold. WITHDRAW: its refusals in their order, and the removal of the record with
its cells and index entries; the buffers its cells held are in the pool, since no cell holds them. -/
def Obligations.WithdrawRemovesRecord : Prop :=
  (∀ (s : State) (r : Record), s.recordBuffers r = r.parts.flatMap fun p =>
    match s.fiche p.ctx with
    | some x => (x.entriesOf p.firstCell (p.pages * r.span.cells)).filterMap (·.buffer)
    | none => []) ∧
  (∀ (g : Nat → Cell → Cell) (cells : List Cell) (i : Nat), (mapCells g cells)[i]? = cells[i]?.map (g i)) ∧
  ∀ (s : State) (f : Frame) (rest : List Frame), Executes s .withdraw f rest →
    (7 < field f.body 8 1 → exec .withdraw s = .next (s.answered f rest .malformed [])) ∧
    (field f.body 8 1 ≤ 7 → s.record (fieldKey f.body 0) = none →
      exec .withdraw s = .next (s.answered f rest .notFound [])) ∧
    ∀ r, field f.body 8 1 ≤ 7 → s.record (fieldKey f.body 0) = some r →
      (s.allComposing r = false → exec .withdraw s = .next (s.answered f rest .frozen [])) ∧
      (s.allComposing r = true →
        conditionHolds r.revision (BitVec.ofNat 16 (field f.body 6 2)) (field f.body 8 1) = false →
        exec .withdraw s = .next (s.answered f rest .condition (bytesOf 2 r.revision.toNat))) ∧
      (s.allComposing r = true →
        conditionHolds r.revision (BitVec.ofNat 16 (field f.body 6 2)) (field f.body 8 1) = true →
        ∃ t : State,
          exec .withdraw s = .next (t.stallTest.answered f rest .ok
            (bytesOf 6 r.key.toNat ++ bytesOf 2 r.revision.toNat ++
              bytesOf 2 ((r.parts.map fun p => p.pages * r.span.cells).sum) ++
              bytesOf 2 (s.recordBuffers r).length)) ∧
          t = { s with
            directory := s.directory.filter fun q => q.key != r.key
            composer := { s.composer with contexts := t.composer.contexts } } ∧
          ∀ c, t.fiche c = (s.fiche c).map fun x =>
            (r.parts.filter fun p => p.ctx == c).foldl (fun x p =>
              { x with
                cells := mapCells (fun i e =>
                  if p.firstCell ≤ i ∧ i < p.firstCell + p.pages * r.span.cells then .free else e) x.cells
                indexUsed := x.indexUsed - 1 }) x)

/-- PURGE: every selected record whose parts are all on COMPOSING contexts is withdrawn and the other selected records are
skipped; the reply counts both. -/
def Obligations.PurgeWithdrawsSelected : Prop :=
  ∀ (s : State) (f : Frame) (rest : List Frame), Executes s .purge f rest →
    (3 < field f.body 12 1 → field f.body 12 1 ≠ 255 → exec .purge s = .next (s.answered f rest .malformed [])) ∧
    ∀ (selected : Record → Bool), s.DirectoryOrdered →
      (∀ r, selected r = true ↔
        r.key &&& fieldKey f.body 6 = fieldKey f.body 0 &&& fieldKey f.body 6 ∧
          (field f.body 12 1 = 255 ∨ r.lane.val = field f.body 12 1)) →
      field f.body 12 1 ≤ 3 ∨ field f.body 12 1 = 255 →
      ∃ t : State,
        exec .purge s = .next (t.stallTest.answered f rest .ok
          (bytesOf 2 (s.directory.countP fun r => selected r && s.allComposing r) ++
            bytesOf 2 (s.directory.countP fun r => selected r && !s.allComposing r))) ∧
        t = { s with
          directory := s.directory.filter fun r => !(selected r && s.allComposing r)
          composer := { s.composer with contexts := t.composer.contexts } } ∧
        (∀ c, s.fiche c = none → t.fiche c = none) ∧
        ∀ c x, s.fiche c = some x → ∃ y, t.fiche c = some y ∧
          y = { x with
            cells := y.cells
            indexUsed := x.indexUsed -
              ((s.directory.filter fun r => selected r && s.allComposing r).map fun r =>
                r.parts.countP fun p => p.ctx == c).sum } ∧
          ∀ i, y.cells[i]? = x.cells[i]?.map fun e =>
            if ∃ r ∈ s.directory, selected r = true ∧ s.allComposing r = true ∧ ∃ p ∈ r.parts, p.ctx = c ∧
              p.firstCell ≤ i ∧ i < p.firstCell + p.pages * r.span.cells then .free else e

/-! ## Fiche Composer -/

/-- The usable cells; when a run of cells is free; a run made free; and the position of a record in key order. PLACE on the
lane's composing fiche by first fit: the pages take the lowest run that is a multiple of s and FREE in
the usable cells, the fiche uses one more index entry, and the record enters the directory; nothing else changes. In the
reply, one presence byte for each item under a condition, the close cause's byte included where it is absent, and two bytes
for the pages are the model's reading (log entries 14, 15 and 32). -/
def Obligations.PlaceFillsLowestFreeRun : Prop :=
  ((∀ n v, spanOf n = some v ↔ n = v.code) ∧
    ∀ (f : Format) (k : Fin 4), usableCells f k = f.rows * f.columns - k.val) ∧
  (∀ (cells : List Cell) (usable first length : Nat), runIsFree cells usable first length = true ↔
    first + length ≤ usable ∧ ∀ i e, first ≤ i → i < first + length → cells[i]? = some e → e = .free) ∧
  (∀ (cells : List Cell) (first length i : Nat), (freeRun cells first length)[i]? = cells[i]?.map fun e =>
    if first ≤ i ∧ i < first + length then .free else e) ∧
  (∀ (r : Record) (directory : List Record), (insertRecord r directory).Perm (r :: directory) ∧
    (directory.Pairwise (fun a b => a.key < b.key) → (∀ q ∈ directory, q.key ≠ r.key) →
      (insertRecord r directory).Pairwise (fun a b => a.key < b.key))) ∧
  (∀ (cells : List Cell) (key : Key) (span : Span) (first q pages i : Nat) (e : Cell), cells[i]? = some e →
    (occupyRun cells key span first q pages)[i]? = some (
      if first ≤ i ∧ i < first + pages * span.cells then .occupied
        { key := key, page := q + (i - first) / span.cells
          half := match span with
            | .single => .whole
            | .wide => if (i - first) % 2 = 0 then .left else .right
          image := .awaiting, buffer := none, cropped := false, saturated := false }
      else e)) ∧
  ∀ (s : State) (f : Frame) (rest : List Frame) (cls : Fin 16) (span : Span) (l : LaneId) (d : LaneDef) (x : CtxId)
    (y : Fiche) (g : Nat), PlacePasses s f rest cls span l d →
    s.composingContext l = some x → s.fiche x = some y →
    (y.k = 0 ∨ y.indexUsed < y.k.val * y.format.indexEntries) →
    g % span.cells = 0 → runIsFree y.cells (usableCells y.format y.k) g (field f.body 7 1 * span.cells) = true →
    (∀ h < g, h % span.cells = 0 →
      runIsFree y.cells (usableCells y.format y.k) h (field f.body 7 1 * span.cells) = false) →
    exec .place s = .next
      ((s.conclude { s.setContext x (some { y with
          cells := occupyRun y.cells (fieldKey f.body 0) span g 1 (field f.body 7 1)
          indexUsed := y.indexUsed + 1 }) with
        directory := insertRecord (placedRecord f cls span l [⟨x, y.serial, g, 1, field f.body 7 1⟩])
          s.directory }).answered f rest .ok
        (bytesOf 6 (fieldKey f.body 0).toNat ++ bytesOf 1 l.val ++ bytesOf 2 0 ++ bytesOf 1 1 ++
          placedPartBytes x y.serial y.format g 1 (field f.body 7 1) ++
          List.replicate 7 0 ++ List.replicate 5 0 ++ List.replicate 5 0))

/-- The fiche a lane opens with pages at cell 0. PLACE of a whole document on a fiche it opens: where the lane composes
none; where the composing fiche carries a document and has no room or no index entry, and no split is made, after closing
it FULL; and where the composing fiche carries none, after discarding it. A fiche closed for any cause becomes CLOSING
with its timer, or is QUEUED at once, complete or with its awaited pages given up. In the reply, one presence byte for
each item under a condition, two bytes for the pages and one for the close cause are the model's reading (log entries 14,
15 and 32). -/
def Obligations.PlaceOpensFicheForWholeDocument : Prop :=
  (∀ (l : LaneId) (d : LaneDef) (serial : Nat) (key : Key) (span : Span) (firstPage pages : Nat),
    freshFiche l d serial key span firstPage pages =
      { state := .composing, lane := l, serial := serial, format := d.format, k := d.k, split := d.split
        lines := d.titleLines serial, spacing := d.spacing, polarity := d.polarity, curve := d.curve, gain := d.gain
        bias := d.bias, imageWait := d.imageWait
        cells := occupyRun (List.replicate (d.format.cells - d.k.val) .free ++ List.replicate d.k.val .index) key span 0
          firstPage pages
        indexUsed := 1, cause := none, timer := none, attempts := 0, cellsDone := 0, corrected := 0
        saturatedCells := 0, titleClipped := false }) ∧
  (∀ (s : State) (x : CtxId) (y : Fiche) (cause : CloseCause), s.fiche x = some y →
    (y.countImages .awaiting = 0 → s.closeFiche x cause =
      (s.setContext x (some { y with state := .queued, cause := some cause, timer := none })).setQueue y.lane
        (s.queue y.lane ++ [x])) ∧
    (y.countImages .awaiting ≠ 0 → y.imageWait ≠ 0 → s.closeFiche x cause =
      s.setContext x (some { y with state := .closing, cause := some cause, timer := some y.imageWait })) ∧
    (y.countImages .awaiting ≠ 0 → y.imageWait = 0 → s.closeFiche x cause =
      { (s.setContext x (some { y with
          cells := y.cells.map (Cell.modify fun o => if o.image = .awaiting then { o with image := .missing } else o)
          state := .queued, cause := some cause, timer := none })).setQueue y.lane (s.queue y.lane ++ [x]) with
        port := { s.port with
          flags := s.port.flags ||| BitVec.twoPow 24 (4 * y.lane.val + 2)
          counters := { s.port.counters with
            missingPlaceholders := min 65535 (s.port.counters.missingPlaceholders + y.countImages .awaiting) } } })) ∧
  ∀ (s : State) (f : Frame) (rest : List Frame) (cls : Fin 16) (span : Span) (l : LaneId) (d : LaneDef) (c : CtxId),
    PlacePasses s f rest cls span l d →
    (s.composingContext l = none → s.lowestFree = some c →
      exec .place s = .next
        ((s.conclude { (s.setNextSerial l (((s.lane l).nextSerial + 1) % 1000000)).setContext c
            (some (freshFiche l d (s.lane l).nextSerial (fieldKey f.body 0) span 1 (field f.body 7 1))) with
          directory := insertRecord (placedRecord f cls span l
            [⟨c, (s.lane l).nextSerial, 0, 1, field f.body 7 1⟩]) s.directory }).answered f rest .ok
          (bytesOf 6 (fieldKey f.body 0).toNat ++ bytesOf 1 l.val ++ bytesOf 2 0 ++ bytesOf 1 1 ++
            placedPartBytes c (s.lane l).nextSerial d.format 0 1 (field f.body 7 1) ++
            List.replicate 7 0 ++ List.replicate 5 0 ++
            ([1] ++ bytesOf 1 c.val ++ bytesOf 3 (s.lane l).nextSerial)))) ∧
    ∀ x y, s.composingContext l = some x → s.fiche x = some y →
      (¬(y.k = 0 ∨ y.indexUsed < y.k.val * y.format.indexEntries) ∨
        (y.split = .keep ∨ tailPages y.cells (usableCells y.format y.k) span.cells = 0) ∧
          ∀ g, g % span.cells = 0 →
            runIsFree y.cells (usableCells y.format y.k) g (field f.body 7 1 * span.cells) = false) →
      (y.indexUsed ≠ 0 → s.lowestFree = some c →
        ∃ z, (s.closeFiche x .full).fiche x = some z ∧
        exec .place s = .next
          ((s.conclude { ((s.closeFiche x .full).setNextSerial l (((s.lane l).nextSerial + 1) % 1000000)).setContext c
              (some (freshFiche l d (s.lane l).nextSerial (fieldKey f.body 0) span 1 (field f.body 7 1))) with
            directory := insertRecord (placedRecord f cls span l
              [⟨c, (s.lane l).nextSerial, 0, 1, field f.body 7 1⟩]) s.directory }).answered f rest .ok
            (bytesOf 6 (fieldKey f.body 0).toNat ++ bytesOf 1 l.val ++ bytesOf 2 0 ++ bytesOf 1 1 ++
              placedPartBytes c (s.lane l).nextSerial d.format 0 1 (field f.body 7 1) ++
              ([1] ++ bytesOf 1 x.val ++ bytesOf 3 y.serial ++ [1] ++ [if z.state = .queued then 1 else 0]) ++
              List.replicate 5 0 ++ ([1] ++ bytesOf 1 c.val ++ bytesOf 3 (s.lane l).nextSerial)))) ∧
      (y.indexUsed = 0 → (s.setContext x none).lowestFree = some c →
        exec .place s = .next
          ((s.conclude { ((s.setContext x none).setNextSerial y.lane ((y.serial + 1) % 1000000)).setContext c
              (some (freshFiche l d y.serial (fieldKey f.body 0) span 1 (field f.body 7 1))) with
            directory := insertRecord (placedRecord f cls span l
              [⟨c, y.serial, 0, 1, field f.body 7 1⟩]) s.directory }).answered f rest .ok
            (bytesOf 6 (fieldKey f.body 0).toNat ++ bytesOf 1 l.val ++ bytesOf 2 0 ++ bytesOf 1 1 ++
              placedPartBytes c y.serial d.format 0 1 (field f.body 7 1) ++ List.replicate 7 0 ++
              ([1] ++ bytesOf 1 x.val ++ bytesOf 3 y.serial) ++ ([1] ++ bytesOf 1 c.val ++ bytesOf 3 y.serial))))

/-- PLACE that splits: pages 1 to t fill the tail of the composing fiche, which is closed SPLIT, and the rest begin at
cell 0 of the fiche opened after it. The tail begins after the highest usable cell that is not FREE, rounded up to a
multiple of s, at 0 when all are FREE, and its cells hold t whole pages. In the reply, one presence byte for each item under
a condition, two bytes for the pages and one for the close cause are the model's reading (log entries 14, 15 and 32). -/
def Obligations.PlaceSplitsAtTail : Prop :=
  (∀ (cells : List Cell) (usable : Nat) (span : Span), usable ≤ cells.length →
    ((∀ i < usable, cells[i]? = some .free) → tailStart cells usable span.cells = 0) ∧
    (∀ j < usable, cells[j]? ≠ some .free → (∀ i, j < i → i < usable → cells[i]? = some .free) →
      tailStart cells usable span.cells =
        if (j + 1) % span.cells = 0 then j + 1 else j + 1 + (span.cells - (j + 1) % span.cells)) ∧
    tailPages cells usable span.cells = (usable - tailStart cells usable span.cells) / span.cells) ∧
  ∀ (s : State) (f : Frame) (rest : List Frame) (cls : Fin 16) (span : Span) (l : LaneId) (d : LaneDef) (x c : CtxId)
    (y : Fiche) (t : Nat), PlacePasses s f rest cls span l d →
    s.composingContext l = some x → s.fiche x = some y → s.lowestFree = some c → y.split = .allow →
    (y.k = 0 ∨ y.indexUsed < y.k.val * y.format.indexEntries) →
    t = tailPages y.cells (usableCells y.format y.k) span.cells → 1 ≤ t →
    (∀ g, g % span.cells = 0 →
      runIsFree y.cells (usableCells y.format y.k) g (field f.body 7 1 * span.cells) = false) →
    ∃ u z, u = (s.setContext x (some { y with
        cells := occupyRun y.cells (fieldKey f.body 0) span (tailStart y.cells (usableCells y.format y.k) span.cells) 1 t
        indexUsed := y.indexUsed + 1 })).closeFiche x .split ∧ u.fiche x = some z ∧
      exec .place s = .next
        ((s.conclude { (u.setNextSerial l (((s.lane l).nextSerial + 1) % 1000000)).setContext c
            (some (freshFiche l d (s.lane l).nextSerial (fieldKey f.body 0) span (t + 1) (field f.body 7 1 - t))) with
          directory := insertRecord (placedRecord f cls span l
            [⟨x, y.serial, tailStart y.cells (usableCells y.format y.k) span.cells, 1, t⟩,
             ⟨c, (s.lane l).nextSerial, 0, t + 1, field f.body 7 1 - t⟩]) s.directory }).answered f rest .ok
          (bytesOf 6 (fieldKey f.body 0).toNat ++ bytesOf 1 l.val ++ bytesOf 2 0 ++ bytesOf 1 2 ++
            (placedPartBytes x y.serial y.format (tailStart y.cells (usableCells y.format y.k) span.cells) 1 t ++
              placedPartBytes c (s.lane l).nextSerial d.format 0 (t + 1) (field f.body 7 1 - t)) ++
            ([1] ++ bytesOf 1 x.val ++ bytesOf 3 y.serial ++ [2] ++ [if z.state = .queued then 1 else 0]) ++
            List.replicate 5 0 ++ ([1] ++ bytesOf 1 c.val ++ bytesOf 3 (s.lane l).nextSerial)))

/-- The refusals of PLACE in their order, NO_CONTEXT the last: a fresh fiche, a split or a FULL close needs a FREE context;
a refused PLACE changes nothing. -/
def Obligations.PlaceRefusalsInOrder : Prop :=
  ∀ (s : State) (f : Frame) (rest : List Frame), Executes s .place f rest →
    (field f.body 7 1 = 0 ∨ 16 ≤ field f.body 6 1 ∨ 2 ≤ field f.body 8 1 →
      exec .place s = .next (s.answered f rest .malformed [])) ∧
    ∀ (cls : Fin 16) (span : Span) (l : LaneId), field f.body 7 1 ≠ 0 → field f.body 6 1 = cls.val →
      spanOf (field f.body 8 1) = some span → s.laneTable.classMap.get cls = l →
      (s.enabledLane l = none → exec .place s = .next (s.answered f rest .noLane [])) ∧
      ∀ d, s.enabledLane l = some d →
        (s.record (fieldKey f.body 0) ≠ none → exec .place s = .next (s.answered f rest .duplicate [])) ∧
        (s.record (fieldKey f.body 0) = none →
          (1024 ≤ s.directory.length → exec .place s = .next (s.answered f rest .directoryFull [])) ∧
          (s.directory.length < 1024 →
            (64 < field f.body 7 1 ∨ usableCells d.format d.k < field f.body 7 1 * span.cells →
              exec .place s = .next (s.answered f rest .tooLarge [])) ∧
            (field f.body 7 1 ≤ 64 → field f.body 7 1 * span.cells ≤ usableCells d.format d.k →
              s.lowestFree = none →
              (s.composingContext l = none → exec .place s = .next (s.answered f rest .noContext [])) ∧
              ∀ x y, s.composingContext l = some x → s.fiche x = some y →
                y.indexUsed ≠ 0 ∨ (y.split = .allow ∧ 1 ≤ tailPages y.cells (usableCells y.format y.k) span.cells ∧
                  (y.k = 0 ∨ y.indexUsed < y.k.val * y.format.indexEntries)) →
                (¬(y.k = 0 ∨ y.indexUsed < y.k.val * y.format.indexEntries) ∨ ∀ g, g % span.cells = 0 →
                  runIsFree y.cells (usableCells y.format y.k) g (field f.body 7 1 * span.cells) = false) →
                exec .place s = .next (s.answered f rest .noContext []))))

/-- The serial written into a title line: six decimal digits from its column on, the line extended with spaces to the
column, digits past column 39 dropped. The lines of a fiche opened from the template: line 1, and line 2 when it holds
characters or the serial position names it; the serial is written into the line named. -/
def Obligations.SerialIsWrittenIntoTitleLine : Prop :=
  (∀ (d : LaneDef) (serial : Nat),
    (d.serialPosition = none →
      d.titleLines serial = d.line1 :: if d.line2.text = [] then [] else [d.line2]) ∧
    (∀ column, d.serialPosition = some ⟨.line1, column⟩ →
      d.titleLines serial = { d.line1 with text := writeSerial d.line1.text column serial } ::
        if d.line2.text = [] then [] else [d.line2]) ∧
    ∀ column, d.serialPosition = some ⟨.line2, column⟩ →
      d.titleLines serial = [d.line1, { d.line2 with text := writeSerial d.line2.text column serial }]) ∧
  ∀ (text : Text) (column serial : Nat), text.length ≤ 40 → column ≤ 39 →
    (writeSerial text column serial).length = max text.length (min 40 (column + 6)) ∧
    ∀ j, j < max text.length (min 40 (column + 6)) → (writeSerial text column serial)[j]? = some (
      if column ≤ j ∧ j < column + 6 then 48 + serial / 10 ^ (5 - (j - column)) % 10 else text[j]?.getD 32)

/-- The lowest FREE context, a lane's COMPOSING context and the definition of an enabled lane. OPEN FICHE: its refusals in
their order, and the fiche it opens in the lowest FREE context, with the template's title
lines or the one or two carried, whose characters outside 32 to 126 become "?" and whose spacing is at most 15. The one
presence byte for the items of carried titles is the model's reading (log entry 14), and so is one byte for the format in
the reply (log entry 32). -/
def Obligations.OpenFicheOpensLowestContext : Prop :=
  (∀ (s : State) (l : LaneId),
    (∀ c, s.lowestFree = some c ↔ s.fiche c = none ∧ ∀ b < c, s.fiche b ≠ none) ∧
    (s.lowestFree = none ↔ ∀ c, s.fiche c ≠ none) ∧
    (∀ c, s.composingContext l = some c → ∃ x, s.fiche c = some x ∧ x.state = .composing ∧ x.lane = l) ∧
    (s.composingContext l = none ↔ ∀ c x, s.fiche c = some x → ¬(x.state = .composing ∧ x.lane = l)) ∧
    ∀ d, s.enabledLane l = some d ↔ (s.lane l).definition = some d ∧ d.enabled = true) ∧
  (∀ body : List Byte, field body 1 1 ≤ 2 →
    (field body 1 1 ≠ 0 → field body 2 1 ≤ 40 ∧ field body 3 1 ≤ 3) →
    (field body 1 1 = 2 → 4 + field body 2 1 ≤ body.length ∧ field body (4 + field body 2 1) 1 ≤ 40 ∧
      field body (5 + field body 2 1) 1 ≤ 3) →
    ∃ titles, carriedTitlesOf body = some titles) ∧
  [Format.g1, .g2, .g3, .g4].map Format.indexEntries = [48, 36, 30, 24] ∧
  ∀ (s : State) (f : Frame) (rest : List Frame), Executes s .openFiche f rest →
    (4 ≤ field f.body 0 1 ∨ 3 ≤ field f.body 1 1 ∨
        (field f.body 1 1 ≠ 0 ∧ (41 ≤ field f.body 2 1 ∨ 4 ≤ field f.body 3 1)) ∨
        (field f.body 1 1 = 2 ∧
          (41 ≤ field f.body (4 + field f.body 2 1) 1 ∨ 4 ≤ field f.body (5 + field f.body 2 1) 1))
      → exec .openFiche s = .next (s.answered f rest .malformed [])) ∧
    ∀ (l : LaneId) (titles : Option CarriedTitles) (length1 length2 : Nat) (text1 text2 : Text),
      field f.body 0 1 = l.val → carriedTitlesOf f.body = some titles →
      length1 = field f.body 2 1 → text1 = fieldText f.body 4 length1 →
      length2 = field f.body (4 + length1) 1 → text2 = fieldText f.body (6 + length1) length2 →
      (field f.body 1 1 = 0 → titles = none) ∧
      (field f.body 1 1 = 1 → text1.length = length1 ∧
        ∃ size, titleSizeOf (field f.body 3 1) = some size ∧ titles = some
          { lines := [⟨text1.map printable, size⟩]
            spacing := min 15 (field f.body (4 + length1) 1)
            replaced := text1.countP fun c => decide (c < 32 ∨ 126 < c)
            lowered := decide (15 < field f.body (4 + length1) 1) }) ∧
      (field f.body 1 1 = 2 → text1.length = length1 ∧ text2.length = length2 ∧
        ∃ size1 size2, titleSizeOf (field f.body 3 1) = some size1 ∧
          titleSizeOf (field f.body (5 + length1) 1) = some size2 ∧ titles = some
          { lines := [⟨text1.map printable, size1⟩, ⟨text2.map printable, size2⟩]
            spacing := min 15 (field f.body (6 + length1 + length2) 1)
            replaced := (text1.countP fun c => decide (c < 32 ∨ 126 < c)) +
              text2.countP fun c => decide (c < 32 ∨ 126 < c)
            lowered := decide (15 < field f.body (6 + length1 + length2) 1) }) ∧
      (s.enabledLane l = none → exec .openFiche s = .next (s.answered f rest .noLane [])) ∧
      ∀ d, s.enabledLane l = some d →
        (s.composingContext l ≠ none → exec .openFiche s = .next (s.answered f rest .state [])) ∧
        (s.composingContext l = none →
          (s.lowestFree = none → exec .openFiche s = .next (s.answered f rest .noContext [])) ∧
          ∀ c, s.lowestFree = some c →
            exec .openFiche s = .next
              (((s.setContext c (some
                { state := .composing, lane := l, serial := (s.lane l).nextSerial, format := d.format, k := d.k
                  split := d.split
                  lines := match titles with
                    | some t => t.lines
                    | none => d.titleLines (s.lane l).nextSerial
                  spacing := match titles with
                    | some t => t.spacing
                    | none => d.spacing
                  polarity := d.polarity, curve := d.curve, gain := d.gain, bias := d.bias, imageWait := d.imageWait
                  cells := List.replicate (d.format.cells - d.k.val) .free ++ List.replicate d.k.val .index
                  indexUsed := 0, cause := none, timer := none, attempts := 0, cellsDone := 0, corrected := 0
                  saturatedCells := 0, titleClipped := false })).setNextSerial l
                    (((s.lane l).nextSerial + 1) % 1000000)).answered f rest .ok
                (bytesOf 1 c.val ++ bytesOf 3 (s.lane l).nextSerial ++ bytesOf 1 d.format.code ++ bytesOf 1 d.k.val ++
                  bytesOf 2 (d.k.val * d.format.indexEntries) ++ bytesOf 3 (((s.lane l).nextSerial + 1) % 1000000) ++
                  match titles with
                  | some t => [1] ++ bytesOf 1 t.replaced ++ [if t.lowered then 1 else 0]
                  | none => [0, 0, 0])))

/-- The counts of a fiche's cells by kind and image state. READ FICHE: a FREE context answers its state alone, a range
past the format's cells or a context above 7 is MALFORMED, and otherwise the reply gives the summary items in the rule's
order and the cells asked for, each entry its kind byte and, OCCUPIED, the key, page, half, image state, buffer or its
absence, and flags. It changes nothing (the free value of a number of parts above 255 is the model's, log entry 13; so are
one presence byte for each item under a condition, log entry 14, the title lines sent as their count and each line's
length, size and text, log entry 15, the count of cell entries sent for a cell count of 0 too, log entry 30, and one byte
each for the context state, format, split policy, polarity, title size and close cause, log entry 32). -/
def Obligations.ReadFicheReportsContext : Prop :=
  (∀ x : Fiche, x.cells.countP Cell.isFree = x.cells.countP (fun e => e = .free) ∧
    x.cells.countP Cell.isIndex = x.cells.countP (fun e => e = .index) ∧
    (∀ o, o ∈ x.entries ↔ .occupied o ∈ x.cells) ∧
    x.entries.length + x.cells.countP Cell.isFree + x.cells.countP Cell.isIndex = x.cells.length ∧
    (∀ image, x.countImages image = x.entries.countP fun o => o.image = image) ∧
    x.buffers = x.entries.filterMap (·.buffer)) ∧
  [CloseCause.host, .full, .split].map CloseCause.code = [0, 1, 2] ∧
  (Cell.bytes .free = [0] ∧ Cell.bytes .index = [1] ∧
    ∀ o : Occupied, Cell.bytes (.occupied o) = [2] ++ bytesOf 6 o.key.toNat ++ bytesOf 1 o.page ++
      (match o.half with
        | .whole => ([0] : List Byte)
        | .left => [1]
        | .right => [2]) ++
      (match o.image with
        | .awaiting => ([0] : List Byte)
        | .present => [1]
        | .missing => [2]
        | .damaged => [3]) ++
      (match o.buffer with
        | none => ([0, 0, 0] : List Byte)
        | some b => [1] ++ bytesOf 2 b) ++
      [if o.cropped then 1 else 0] ++ [if o.saturated then 1 else 0]) ∧
  ∀ (s : State) (f : Frame) (rest : List Frame), Executes s .readFiche f rest →
    (8 ≤ field f.body 0 1 → exec .readFiche s = .next (s.answered f rest .malformed [])) ∧
    ∀ c : CtxId, field f.body 0 1 = c.val →
      (s.fiche c = none → exec .readFiche s = .next (s.answered f rest .ok [0])) ∧
      ∀ x, s.fiche c = some x →
        (x.format.cells < field f.body 1 2 + field f.body 3 2 →
          exec .readFiche s = .next (s.answered f rest .malformed [])) ∧
        (field f.body 1 2 + field f.body 3 2 ≤ x.format.cells →
          ∃ parts : Byte, (x.indexUsed < 256 → parts = BitVec.ofNat 8 x.indexUsed) ∧
          exec .readFiche s = .next
            (({ s with free := s.free + if x.indexUsed < 256 then 0 else 1 } : State).answered f rest .ok
              ((bytesOf 1 x.state.code ++ bytesOf 1 x.lane.val ++ bytesOf 3 x.serial ++
                bytesOf 1 x.format.code ++ bytesOf 1 x.k.val ++ bytesOf 2 (x.k.val * x.format.indexEntries) ++
                bytesOf 2 x.indexUsed ++ bytesOf 1 x.split.code ++ bytesOf 1 x.polarity.code ++ bytesOf 1 x.curve.val ++
                bytesOf 2 x.gain ++ bytesOf 2 x.bias ++ bytesOf 1 x.imageWait ++
                bytesOf 1 x.lines.length ++ (x.lines.flatMap fun t =>
                  bytesOf 1 t.text.length ++ bytesOf 1 t.size.code ++ textBytes t.text) ++ bytesOf 1 x.spacing ++
                [if x.titleClipped then 1 else 0] ++
                (match x.cause with
                  | some cause => if x.state = .composing then [0, 0] else 1 :: bytesOf 1 cause.code
                  | none => [0, 0]) ++
                (match x.timer with
                  | some n => if x.state = .closing then 1 :: bytesOf 1 n else [0, 0]
                  | none => [0, 0]) ++
                bytesOf 1 x.attempts ++
                (if x.state = .exposing then 1 :: bytesOf 2 x.cellsDone else [0, 0, 0]) ++
                bytesOf 2 x.corrected ++ bytesOf 2 x.saturatedCells ++ [parts] ++
                bytesOf 2 (x.cells.countP Cell.isFree) ++ bytesOf 2 x.entries.length ++
                bytesOf 2 (x.cells.countP Cell.isIndex) ++ bytesOf 2 (x.countImages .awaiting) ++
                bytesOf 2 (x.countImages .present) ++ bytesOf 2 (x.countImages .missing) ++
                bytesOf 2 (x.countImages .damaged) ++ bytesOf 2 x.buffers.length) ++
              bytesOf 2 (field f.body 3 2) ++
              ((x.cells.drop (field f.body 1 2)).take (field f.body 3 2)).flatMap Cell.bytes)))

/-- CLOSE: the fiche it acts on, or its refusal; an empty fiche is freed with its serial handed back; another becomes
CLOSING with its timer, or is complete and QUEUED, or gives up its awaited pages at once. One presence byte for each item of
the reply under a condition is the model's reading (log entry 14), and so is one byte each for the CLOSE result and for the
context state of FROZEN (log entry 32). -/
def Obligations.CloseEndsComposition : Prop :=
  ∀ (s : State) (f : Frame) (rest : List Frame), Executes s .close f rest →
    (4 ≤ field f.body 0 1 ∨ (8 ≤ field f.body 1 1 ∧ field f.body 1 1 ≠ 255) →
      exec .close s = .next (s.answered f rest .malformed [])) ∧
    ∀ l : LaneId, field f.body 0 1 = l.val →
      (field f.body 1 1 = 255 → s.composingContext l = none →
        exec .close s = .next (s.answered f rest .nothingOpen [])) ∧
      (∀ c : CtxId, field f.body 1 1 = c.val → (∀ x, s.fiche c = some x → x.lane ≠ l) →
        exec .close s = .next (s.answered f rest .nothingOpen [])) ∧
      (∀ (c : CtxId) x, field f.body 1 1 = c.val → s.fiche c = some x → x.lane = l → x.state ≠ .composing →
        exec .close s = .next (s.answered f rest .frozen (bytesOf 1 x.state.code))) ∧
      ∀ (c : CtxId) x, s.fiche c = some x → x.lane = l → x.state = .composing →
        (field f.body 1 1 = c.val ∨ (field f.body 1 1 = 255 ∧ s.composingContext l = some c)) →
        (x.indexUsed = 0 → exec .close s = .next (((s.setContext c none).setNextSerial l x.serial).answered f rest .ok
          (bytesOf 1 c.val ++ bytesOf 3 x.serial ++ [0] ++ (1 :: bytesOf 3 x.serial) ++ [0, 0, 0, 0] ++ [0, 0, 0]))) ∧
        (x.indexUsed ≠ 0 → x.countImages .awaiting = 0 →
          exec .close s = .next ((s.conclude ((s.setContext c (some { x with
              state := .queued, cause := some .host, timer := none })).setQueue l (s.queue l ++ [c]))).answered f rest .ok
            (bytesOf 1 c.val ++ bytesOf 3 x.serial ++ [2] ++ [0, 0, 0, 0] ++ [0, 0, 0, 0] ++ [0, 0, 0]))) ∧
        (x.indexUsed ≠ 0 → x.countImages .awaiting ≠ 0 → x.imageWait ≠ 0 →
          exec .close s = .next ((s.conclude (s.setContext c (some { x with
              state := .closing, cause := some .host, timer := some x.imageWait }))).answered f rest .ok
            (bytesOf 1 c.val ++ bytesOf 3 x.serial ++ [1] ++ [0, 0, 0, 0] ++
              (1 :: (bytesOf 2 (x.countImages .awaiting) ++ bytesOf 1 x.imageWait)) ++ [0, 0, 0]))) ∧
        (x.indexUsed ≠ 0 → x.countImages .awaiting ≠ 0 → x.imageWait = 0 →
          exec .close s = .next ((s.conclude ((s.setContext c (some { x with
              state := .closing, cause := some .host, timer := some 0 })).expireImageWait c)).answered f rest .ok
            (bytesOf 1 c.val ++ bytesOf 3 x.serial ++ [2] ++ [0, 0, 0, 0] ++ [0, 0, 0, 0] ++
              (1 :: bytesOf 2 (x.countImages .awaiting)))))

/-- IMAGE_WAIT_EXPIRY of a CLOSING context: every awaited page becomes MISSING, MISSING of the lane is set, the missing
placeholders counter rises by the cells, and the context joins the tail of its lane's queue. In another state the event
does not happen and nothing changes (the model's reading, log entry 4). -/
def Obligations.ImageWaitExpiryGivesUpPages : Prop :=
  (∀ (s : State) (c : CtxId) (x : Fiche), s.fiche c = some x →
    s.expireImageWait c = { (s.setContext c (some { x with
        cells := x.cells.map (Cell.modify fun o => if o.image = .awaiting then { o with image := .missing } else o)
        state := .queued, timer := none })).setQueue x.lane (s.queue x.lane ++ [c]) with
      port := { s.port with
        flags := s.port.flags ||| BitVec.twoPow 24 (4 * x.lane.val + 2)
        counters := { s.port.counters with
          missingPlaceholders := min 65535 (s.port.counters.missingPlaceholders + x.countImages .awaiting) } } }) ∧
  ∀ (s : State) (c : CtxId),
    (∀ x, s.fiche c = some x → x.state = .closing →
      exec (.imageWaitExpiry c.val) s = .next (s.conclude (s.expireImageWait c))) ∧
    ((∀ x, s.fiche c = some x → x.state ≠ .closing) → exec (.imageWaitExpiry c.val) s = .next s)

/-- REQUEUE: refused for a bad operand, a state other than FAILED or another serial; performed, the context joins the tail
of its lane's queue with attempts and cells done 0. -/
def Obligations.RequeueReturnsFailedFiche : Prop :=
  ∀ (s : State) (f : Frame) (rest : List Frame), Executes s .requeue f rest →
    (8 ≤ field f.body 0 1 ∨ (999999 < field f.body 1 3 ∧ field f.body 1 3 ≠ 0xFFFFFF) →
      exec .requeue s = .next (s.answered f rest .malformed [])) ∧
    ∀ c : CtxId, field f.body 0 1 = c.val → field f.body 1 3 ≤ 999999 ∨ field f.body 1 3 = 0xFFFFFF →
      (s.fiche c = none → exec .requeue s = .next (s.answered f rest .state [])) ∧
      ∀ x, s.fiche c = some x →
        (x.state ≠ .failed ∨ (field f.body 1 3 ≠ 0xFFFFFF ∧ field f.body 1 3 ≠ x.serial) →
          exec .requeue s = .next (s.answered f rest .state [])) ∧
        (x.state = .failed → field f.body 1 3 = 0xFFFFFF ∨ field f.body 1 3 = x.serial →
          exec .requeue s = .next
            ((s.conclude ((s.setContext c (some { x with
                state := .queued, timer := none, attempts := 0, cellsDone := 0 })).setQueue x.lane
                  (s.queue x.lane ++ [c]))).answered f rest .ok
              (bytesOf 1 c.val ++ bytesOf 3 x.serial ++ bytesOf 1 ((s.queue x.lane).length + 1))))

/-- RELEASE: refused with the context's state, or the context becomes FREE, every part on it leaves its record (its pages
counted as released when it was EXPOSED) and records left with no part leave the directory. The byte of a number of parts
above 255 is a free value (log entry 13). One byte for the context state in a reply is the model's reading (log entry 32). -/
def Obligations.ReleaseFreesContextAndParts : Prop :=
  ∀ (s : State) (f : Frame) (rest : List Frame), Executes s .release f rest →
    (8 ≤ field f.body 0 1 ∨ (999999 < field f.body 1 3 ∧ field f.body 1 3 ≠ 0xFFFFFF) →
      exec .release s = .next (s.answered f rest .malformed [])) ∧
    ∀ c : CtxId, field f.body 0 1 = c.val → field f.body 1 3 ≤ 999999 ∨ field f.body 1 3 = 0xFFFFFF →
      (s.fiche c = none → exec .release s = .next (s.answered f rest .state [0])) ∧
      ∀ x, s.fiche c = some x →
        (x.state = .composing ∨ (field f.body 1 3 ≠ 0xFFFFFF ∧ field f.body 1 3 ≠ x.serial) →
          exec .release s = .next (s.answered f rest .state (bytesOf 1 x.state.code))) ∧
        (field f.body 1 3 = 0xFFFFFF ∨ field f.body 1 3 = x.serial →
          (x.state = .closing ∨ x.state = .queued ∨ x.state = .exposing →
            exec .release s = .next (s.answered f rest .busy (bytesOf 1 x.state.code))) ∧
          (x.state = .exposed ∨ x.state = .failed →
            ∃ parts : Byte,
              ((s.directory.map fun r => r.parts.countP fun p => p.ctx == c).sum < 256 →
                parts = BitVec.ofNat 8 (s.directory.map fun r => r.parts.countP fun p => p.ctx == c).sum) ∧
              exec .release s = .next
                (({ s.setContext c none with
                    directory := (s.directory.map fun r =>
                      if r.parts.any (fun p => p.ctx == c) then
                        { r with
                          parts := r.parts.filter fun p => p.ctx != c
                          released := r.released + if x.state = .exposed then
                            ((r.parts.filter fun p => p.ctx == c).map (·.pages)).sum else 0 }
                      else r).filter fun r => !r.parts.isEmpty
                    free := s.free +
                      if (s.directory.map fun r => r.parts.countP fun p => p.ctx == c).sum < 256 then 0 else 1 } :
                    State).stallTest.answered f rest .ok
                  (bytesOf 1 c.val ++ bytesOf 3 x.serial ++ bytesOf 1 x.state.code ++ [parts] ++
                    bytesOf 2 (s.directory.countP fun r =>
                      r.parts.any (fun p => p.ctx == c) && r.parts.all fun p => p.ctx == c) ++
                    bytesOf 2 (s.directory.countP fun r =>
                      r.parts.any (fun p => p.ctx == c) && r.parts.any fun p => p.ctx != c) ++
                    bytesOf 2 x.buffers.length))))

/-- FENCE: a scope out of range is MALFORMED, an empty snapshot is answered at once, a fifth fence is BUSY, and any other
is parked without a reply. A context that enters EXPOSED or FAILED settles in every pending fence that holds it unsettled,
and each fence so settled whole is answered in the order of parking. The member count sent once, before the not-exposed
count, is the model's reading (log entry 17), and so is one byte for a fence outcome (log entry 32). -/
def Obligations.FenceParksAndSettles : Prop :=
  (∀ (s : State) (f : Frame) (rest : List Frame), Executes s .fence f rest →
    (4 ≤ field f.body 1 1 → field f.body 1 1 ≠ 255 → exec .fence s = .next (s.answered f rest .malformed [])) ∧
    ∀ scope : Option LaneId,
      (field f.body 1 1 = 255 ∧ scope = none) ∨ (∃ l : LaneId, field f.body 1 1 = l.val ∧ scope = some l) →
      (∀ c serial, (⟨c, serial, none⟩ : FenceMember) ∈ s.snapshot scope ↔ ∃ x, s.fiche c = some x ∧ x.serial = serial ∧
        (scope = none ∨ scope = some x.lane) ∧ (x.state = .closing ∨ x.state = .queued ∨ x.state = .exposing)) ∧
      (s.snapshot scope).Pairwise (fun a b => a.ctx < b.ctx) ∧
      (s.snapshot scope = [] →
        exec .fence s = .next (s.answered f rest .ok ([f.body.getD 0 0] ++ [0] ++ [0]))) ∧
      (s.snapshot scope ≠ [] → 4 ≤ s.port.fences.length →
        exec .fence s = .next (s.answered f rest .busy [])) ∧
      (s.snapshot scope ≠ [] → s.port.fences.length < 4 →
        exec .fence s = .next { s with port := { s.port with
          waiting := rest
          fences := s.port.fences ++ [⟨f.byte 0, f.byte 1, f.body.getD 0 0, s.snapshot scope⟩] } })) ∧
  ∀ (s : State) (c : CtxId) (o : FenceOutcome),
    s.settleFences c o = { s with port := { s.port with
      fences := (s.port.fences.map fun (f : PendingFence) => { f with members := f.members.map fun (m : FenceMember) =>
          if m.ctx = c ∧ m.outcome = none then { m with outcome := some o } else m }).filter fun (f : PendingFence) =>
        f.members.any fun m => m.outcome == none
      outbound := s.port.outbound ++
        ((s.port.fences.map fun (f : PendingFence) => { f with members := f.members.map fun (m : FenceMember) =>
          if m.ctx = c ∧ m.outcome = none then { m with outcome := some o } else m }).filter fun (f : PendingFence) =>
        f.members.all fun m => m.outcome != none).map fun (f : PendingFence) =>
          ⟨f.code, f.sequence, .ok, [f.tag] ++ bytesOf 1 f.members.length ++
            bytesOf 1 (f.members.countP fun m => m.outcome == some .notExposed) ++
            f.members.flatMap fun (m : FenceMember) => bytesOf 1 m.ctx.val ++ bytesOf 3 m.serial ++
              [if m.outcome = some .notExposed then 1 else 0]⟩ } }

/-! ## Image Intake and Page Memory -/

/-- The hold line and the bytes of a line. IMAGE_BYTE_TAKEN: a header byte before the twelfth, a byte within a raster
line, the byte that completes a line other than the last, a dropped byte other than the last; and while hold or
image-abort is asserted no byte of any kind is taken. -/
def Obligations.ImageBytesFillHeaderAndLines : Prop :=
  (∀ s : State, s.holdLine = true ↔ s.lines.resetLine = true ∨ ∃ m, s.intake = .stalled m) ∧
  (∀ h : Header, h.lineBytes = (h.width * (if h.depth = 1 then 1 else 8) + 7) / 8) ∧
  (∀ (s : State) (byte : Byte), s.lines.resetLine = true ∨ s.lines.abortLine = true ∨ (∃ m, s.intake = .stalled m) →
    exec (.imageByteTaken byte) s = .next s ∧ exec (.imageHeader byte) s = .next s ∧ exec (.imageEnd byte) s = .next s ∧
    exec (.discardingEnd byte) s = .next s) ∧
  ∀ (s : State) (byte : Byte), s.lines.resetLine = false → s.lines.abortLine = false →
    (∀ taken, s.intake = .ready taken → taken.length < 11 →
      exec (.imageByteTaken byte) s = .next { s with intake := .ready (taken ++ [byte]) }) ∧
    (∀ m buffers lines line sums, s.intake = .receiving m buffers lines line sums →
      (line.length + 1 < m.header.lineBytes →
        exec (.imageByteTaken byte) s = .next { s with
          intake := .receiving m buffers lines (line ++ [byte]) sums }) ∧
      (m.header.lineBytes ≤ line.length + 1 → lines + 1 < m.header.height →
        exec (.imageByteTaken byte) s = .next { s with
          intake := .receiving m buffers (lines + 1) [] (takeLine m buffers lines (line ++ [byte]) sums s.memory).1
          memory := (takeLine m buffers lines (line ++ [byte]) sums s.memory).2 })) ∧
    ∀ h why toDrop, s.intake = .discarding h why toDrop → 1 < toDrop →
      exec (.imageByteTaken byte) s = .next { s with intake := .discarding h why (toDrop - 1) }

/-- The part that holds a page, and the page's first cell. IMAGE_HEADER: the fields of the twelve header bytes, most
significant byte first; an invalid header, an absent key and a page above n are ORPHAN; a page in no part, or on a context
that takes no image for it, is LATE; both drop the raster. A header that matches reserves the lowest buffers or stalls. -/
def Obligations.ImageHeaderIsJudged : Prop :=
  (∀ (r : Record) (p : RecordPart) (page : Nat),
    (r.partOf page = some p → p ∈ r.parts ∧ p.firstPage ≤ page ∧ page < p.firstPage + p.pages) ∧
    (r.partOf page = none ↔ ∀ q ∈ r.parts, ¬(q.firstPage ≤ page ∧ page < q.firstPage + q.pages)) ∧
    p.cellOf r.span page = p.firstCell + (page - p.firstPage) * r.span.cells) ∧
  (∀ b0 b1 b2 b3 b4 b5 b6 b7 b8 b9 b10 b11 : Byte, ∀ h, h = headerOf [b0, b1, b2, b3, b4, b5, b6, b7, b8, b9, b10, b11] →
    h.key.toNat = b0.toNat * 2 ^ 40 + b1.toNat * 2 ^ 32 + b2.toNat * 2 ^ 24 + b3.toNat * 2 ^ 16 + b4.toNat * 2 ^ 8 +
      b5.toNat ∧
    h.page = b6.toNat ∧ h.depth = b7.toNat ∧ h.width = b8.toNat * 256 + b9.toNat ∧
    h.height = b10.toNat * 256 + b11.toNat) ∧
  ∀ (s : State) (byte : Byte) (taken : List Byte) (h : Header), s.lines.resetLine = false → s.lines.abortLine = false →
    s.intake = .ready taken → taken.length = 11 → h = headerOf (taken ++ [byte]) →
    (h.page = 0 ∨ (h.depth ≠ 1 ∧ h.depth ≠ 8) ∨ h.width = 0 ∨ 8192 < h.width ∨ h.height = 0 ∨ 8192 < h.height ∨
        s.record h.key = none ∨ (∃ r, s.record h.key = some r ∧ r.pageCount < h.page) →
      exec (.imageHeader byte) s = .next { s with
        port := { s.port with
          flags := s.port.flags ||| BitVec.twoPow 24 16
          counters := { s.port.counters with orphanImages := min 65535 (s.port.counters.orphanImages + 1) } }
        intake := if h.height * ((h.width * (if h.depth = 1 then 1 else 8) + 7) / 8) = 0 then .ready [] else
          .discarding h .orphan (h.height * ((h.width * (if h.depth = 1 then 1 else 8) + 7) / 8)) }) ∧
    ∀ r, 1 ≤ h.page → h.depth = 1 ∨ h.depth = 8 → 1 ≤ h.width → h.width ≤ 8192 → 1 ≤ h.height → h.height ≤ 8192 →
      s.record h.key = some r → h.page ≤ r.pageCount →
      ((∀ p ∈ r.parts, ¬(p.firstPage ≤ h.page ∧ h.page < p.firstPage + p.pages)) ∨
          (∃ p x, r.partOf h.page = some p ∧ s.fiche p.ctx = some x ∧ x.state ≠ .composing ∧
            ¬(x.state = .closing ∧ ∀ j < r.span.cells, ∃ o,
              x.cells[p.cellOf r.span h.page + j]? = some (.occupied o) ∧ o.image = .awaiting)) →
        exec (.imageHeader byte) s = .next { s with
          port := { s.port with
            flags := s.port.flags ||| BitVec.twoPow 24 17
            counters := { s.port.counters with lateImages := min 65535 (s.port.counters.lateImages + 1) } }
          intake := .discarding h .late (h.height * ((h.width * (if h.depth = 1 then 1 else 8) + 7) / 8)) }) ∧
      ∀ p x, r.partOf h.page = some p → s.fiche p.ctx = some x →
        (x.state = .composing ∨ (x.state = .closing ∧ ∀ j < r.span.cells, ∃ o,
          x.cells[p.cellOf r.span h.page + j]? = some (.occupied o) ∧ o.image = .awaiting)) →
        (r.span.cells ≤ s.freePool.length →
          exec (.imageHeader byte) s = .next { s with
            intake := .receiving ⟨h, x.format, r.span, figuresOf h x.format r.span⟩ (s.freePool.take r.span.cells) 0 [] []
            memory := (s.freePool.take r.span.cells).foldl (fun mem b => mem.setExtent b none) s.memory }) ∧
        (s.freePool.length < r.span.cells →
          exec (.imageHeader byte) s = .next { s with
            port := { s.port with flags := s.port.flags ||| BitVec.twoPow 24 18 }
            intake := .stalled ⟨h, x.format, r.span, figuresOf h x.format r.span⟩ })

/-- IMAGE_END: the last line is reduced, the margins written, and the transfer judged again; it attaches its buffers and
advances the revision, completing a CLOSING fiche that awaits nothing more, or ends ORPHAN or LATE with nothing attached.
Writing the margin rows at this moment is the model's choice (log entry 10). -/
def Obligations.ImageEndAttachesOrRejects : Prop :=
  (∀ (cells : List Cell) (first : Nat) (buffers : List Nat) (cropped : Bool) (i : Nat),
    (attachCells cells first buffers cropped)[i]? = cells[i]?.map fun e =>
      if first ≤ i ∧ i < first + buffers.length then
        e.modify fun o => { o with buffer := buffers[i - first]?, image := .present, cropped := cropped }
      else e) ∧
  ∀ (s : State) (byte : Byte) (m : Matched) (buffers : List Nat) (lines : Nat) (line : List Byte) (sums : List Nat)
    (t : State), s.lines.resetLine = false → s.lines.abortLine = false →
    s.intake = .receiving m buffers lines line sums → m.header.lineBytes ≤ line.length + 1 → m.header.height ≤ lines + 1 →
    t = { s with
      intake := .ready []
      memory := writeTransferMargins m buffers (takeLine m buffers lines (line ++ [byte]) sums s.memory).2 } →
    (s.record m.header.key = none ∨ (∃ r, s.record m.header.key = some r ∧ r.pageCount < m.header.page) →
      exec (.imageEnd byte) s = .next (s.conclude { t with port := { s.port with
        flags := s.port.flags ||| BitVec.twoPow 24 16
        counters := { s.port.counters with orphanImages := min 65535 (s.port.counters.orphanImages + 1) } } })) ∧
    ∀ r, s.record m.header.key = some r → m.header.page ≤ r.pageCount →
      ((∀ p ∈ r.parts, ¬(p.firstPage ≤ m.header.page ∧ m.header.page < p.firstPage + p.pages)) ∨
          (∃ p x, r.partOf m.header.page = some p ∧ s.fiche p.ctx = some x ∧ x.state ≠ .composing ∧
            ¬(x.state = .closing ∧ ∀ j < r.span.cells, ∃ o,
              x.cells[p.cellOf r.span m.header.page + j]? = some (.occupied o) ∧ o.image = .awaiting)) →
        exec (.imageEnd byte) s = .next (s.conclude { t with port := { s.port with
          flags := s.port.flags ||| BitVec.twoPow 24 17
          counters := { s.port.counters with lateImages := min 65535 (s.port.counters.lateImages + 1) } } })) ∧
      ∀ p x, r.partOf m.header.page = some p → s.fiche p.ctx = some x →
        (x.state = .composing ∨ (x.state = .closing ∧ ∀ j < r.span.cells, ∃ o,
          x.cells[p.cellOf r.span m.header.page + j]? = some (.occupied o) ∧ o.image = .awaiting)) →
        (x.format ≠ m.format ∨ r.span ≠ m.span →
          exec (.imageEnd byte) s = .next (s.conclude { t with port := { s.port with
            flags := s.port.flags ||| BitVec.twoPow 24 16
            counters := { s.port.counters with orphanImages := min 65535 (s.port.counters.orphanImages + 1) } } })) ∧
        (x.format = m.format → r.span = m.span →
          ∀ y, y = { x with
              cells := attachCells x.cells (p.cellOf r.span m.header.page) buffers m.figures.cropped } →
          ∀ u : State, u = { t.setContext p.ctx (some y) with
              directory := s.directory.map fun q =>
                if q.key = r.key then { q with revision := q.revision + 1 } else q } →
            exec (.imageEnd byte) s = .next (s.conclude
              (if x.state = .closing ∧ y.countImages .awaiting = 0 then u.queueFiche p.ctx else u)))

/-- A DISCARDING transfer ends at its last byte; the image-abort line ends any transfer, with nothing attached and no flag
or counter moved, and its release lets bytes be taken again. That either event on a line at that level already changes nothing
more is the model's reading (log entry 31). -/
def Obligations.TransfersEndByDropOrAbort : Prop :=
  (∀ (s : State) (byte : Byte) h why, s.lines.resetLine = false → s.lines.abortLine = false →
    s.intake = .discarding h why 1 → exec (.discardingEnd byte) s = .next { s with intake := .ready [] }) ∧
  (∀ s : State, exec .imageAbort s = .next { s with
    intake := .ready [], lines := { s.lines with abortLine := true } }) ∧
  (∀ s : State, exec .imageAbortRelease s = .next { s with lines := { s.lines with abortLine := false } }) ∧
  (∀ s : State, (∀ m bs n l g, s.intake ≠ .receiving m bs n l g) → s.intake.buffers = []) ∧
  ∀ m buffers lines line sums, (Intake.receiving m buffers lines line sums).buffers = buffers

/-- The reduction figures of a valid header, their bounds, and the source windows, which lie in the source, each beginning
where the one before it ends; columns and lines past the last window belong to none. -/
def Obligations.ReductionFiguresAndWindows : Prop :=
  ∀ (h : Header) (f : Format) (sp : Span), 1 ≤ h.width → h.width ≤ 8192 → 1 ≤ h.height → h.height ≤ 8192 →
    ∀ g, g = figuresOf h f sp → ∀ tw th stepX stepY, tw = sp.cells * f.cellWidth → th = f.cellHeight →
    stepX = (h.width * 256 + tw - 1) / tw → stepY = (h.height * 256 + th - 1) / th →
    g.step = min 2048 (max 256 (max stepX stepY)) ∧ (g.cropped = true ↔ 2048 < max stepX stepY) ∧
    g.ow = min tw (max 1 (h.width * 256 / g.step)) ∧ g.oh = min th (max 1 (h.height * 256 / g.step)) ∧
    g.ox = (tw - g.ow) / 2 ∧ g.oy = (th - g.oh) / 2 ∧
    256 ≤ g.step ∧ g.step ≤ 2048 ∧ 1 ≤ g.ow ∧ 1 ≤ g.oh ∧ g.ox + g.ow ≤ tw ∧ g.oy + g.oh ≤ th ∧
    (∀ x < g.ow, ∃ a b, spotWindow g.step h.width x = (a, b) ∧ a = x * g.step / 256 ∧
      b = max a (min ((x + 1) * g.step / 256 - 1) (h.width - 1)) ∧ a ≤ b ∧ b ≤ h.width - 1) ∧
    (∀ y < g.oh, ∃ a b, spotWindow g.step h.height y = (a, b) ∧ a = y * g.step / 256 ∧
      b = max a (min ((y + 1) * g.step / 256 - 1) (h.height - 1)) ∧ a ≤ b ∧ b ≤ h.height - 1) ∧
    (∀ x, x + 1 < g.ow → (spotWindow g.step h.width x).2 + 1 = (spotWindow g.step h.width (x + 1)).1) ∧
    ∀ y, y + 1 < g.oh → (spotWindow g.step h.height y).2 + 1 = (spotWindow g.step h.height (y + 1)).1

/-- The gray values of a raster line, one byte a pixel or one bit a pixel from the most significant bit on, any padding bits
ignored. A source line adds its column sums to the spot row whose window holds it, and the row is written, each spot the mean
of its window rounded half up between margins of 255, when the last line of the window is complete. Writing a row stores
its spots, leaves its check groups clean and sets the written extent; a WIDE row fills the LEFT buffer and then the RIGHT
one. The margin columns written with their row, and the margin rows at the end of the transfer, are the model's choice (log
entry 10). -/
def Obligations.ReducedLinesFillSpotRows : Prop :=
  (∀ (width : Nat) (bytes : List Byte), (grayLine 8 width bytes).length = width ∧ (grayLine 1 width bytes).length = width ∧
    ∀ j, j < width →
      (∀ v, bytes[j]? = some v → (grayLine 8 width bytes)[j]? = some v.toNat) ∧
      ∀ v, bytes[j / 8]? = some v → (grayLine 1 width bytes)[j]? = some (
        if v.toNat.testBit (7 - j % 8) = true then 255 else 0)) ∧
  (∀ (mem : Memory) (f : Format) (buffer y : Nat) (values : List Byte), mem.wf = true → y < f.cellHeight →
    values.length = f.cellWidth →
    (∀ b y' x, y' < 1536 → x < 2048 → (mem.writeRow f buffer y values).spot b x y' =
      if b = buffer ∧ y' = y then values[x]?.getD (mem.spot b x y') else mem.spot b x y') ∧
    (∀ n, sparseGet 0#72 (mem.writeRow f buffer y values).upsets n =
      if groupInExtent f buffer n = true ∧ 8 * n % 3145728 / 2048 = y then 0#72 else sparseGet 0#72 mem.upsets n) ∧
    ∀ b, (mem.writeRow f buffer y values).extent b = if b = buffer then some f else mem.extent b) ∧
  (∀ (mem : Memory) (m : Matched) (b b' y : Nat) (row : List Byte),
    writeTargetRow mem m [b] y row = mem.writeRow m.format b y (row.take m.format.cellWidth) ∧
    writeTargetRow mem m [b, b'] y row =
      (mem.writeRow m.format b y (row.take m.format.cellWidth)).writeRow m.format b' y
        ((row.drop m.format.cellWidth).take m.format.cellWidth)) ∧
  (∀ (mem : Memory) (m : Matched) (buffers : List Nat) (margin : Nat → Prop), mem.wf = true →
    (∀ y, margin y ↔ y < m.figures.oy ∨ m.figures.oy + m.figures.oh ≤ y) →
    (∀ a, sparseGet blankSpot (writeTransferMargins m buffers mem).spots a = sparseGet blankSpot mem.spots a ∨
      sparseGet blankSpot (writeTransferMargins m buffers mem).spots a = 255#8) ∧
    (∀ a, sparseGet blankSpot (writeTransferMargins m buffers mem).spots a ≠ sparseGet blankSpot mem.spots a →
      ∃ b ∈ buffers, inExtent m.format b a = true ∧ margin (a % 3145728 / 2048)) ∧
    (∀ a, ∀ b ∈ buffers, inExtent m.format b a = true → margin (a % 3145728 / 2048) →
      sparseGet blankSpot (writeTransferMargins m buffers mem).spots a = 255#8) ∧
    (∀ n, (∃ b ∈ buffers, groupInExtent m.format b n = true ∧ margin (8 * n % 3145728 / 2048)) →
      sparseGet 0#72 (writeTransferMargins m buffers mem).upsets n = 0#72) ∧
    (∀ n, ¬(∃ b ∈ buffers, groupInExtent m.format b n = true ∧ margin (8 * n % 3145728 / 2048)) →
      sparseGet 0#72 (writeTransferMargins m buffers mem).upsets n = sparseGet 0#72 mem.upsets n) ∧
    (writeTransferMargins m buffers mem).extents = mem.extents) ∧
  (∀ first last : Nat, windowCount (first, last) = last - first + 1) ∧
  (∀ (m : Memory) (f : Format) (buffer x y n : Nat),
    m.spot buffer x y = sparseGet blankSpot m.spots (buffer * 3145728 + y * 2048 + x) ∧
    groupInExtent f buffer n = inExtent f buffer (8 * n)) ∧
  (∀ (f : Format) (buffer x y : Nat), x < 2048 → y < 1536 →
    (inExtent f buffer (buffer * 3145728 + y * 2048 + x) = true ↔ x < f.cellWidth ∧ y < f.cellHeight)) ∧
  (∀ (g : Figures) (width : Nat) (gray : List Nat) (x : Nat), x < g.ow →
    (lineSums g width gray)[x]? = some
      (((gray.drop (spotWindow g.step width x).1).take
        ((spotWindow g.step width x).2 - (spotWindow g.step width x).1 + 1)).sum)) ∧
  (∀ (m : Matched) (y : Nat) (sums : List Nat) (x : Nat), sums.length = m.figures.ow →
    m.figures.ox + m.figures.ow ≤ m.span.cells * m.format.cellWidth → x < m.span.cells * m.format.cellWidth →
    (targetRow m y sums)[x]? = some (
      if m.figures.ox ≤ x ∧ x < m.figures.ox + m.figures.ow then
        BitVec.ofNat 8 ((sums.getD (x - m.figures.ox) 0 +
          windowCount (spotWindow m.figures.step m.header.width (x - m.figures.ox)) *
            windowCount (spotWindow m.figures.step m.header.height y) / 2) /
          (windowCount (spotWindow m.figures.step m.header.width (x - m.figures.ox)) *
            windowCount (spotWindow m.figures.step m.header.height y)))
      else 255#8)) ∧
  ∀ (m : Matched) (buffers : List Nat) (l : Nat) (line : List Byte) (sums : List Nat) (mem : Memory),
    1 ≤ m.header.width → m.header.width ≤ 8192 → 1 ≤ m.header.height → m.header.height ≤ 8192 →
    m.figures = figuresOf m.header m.format m.span →
    (∀ y < m.figures.oh, (spotWindow m.figures.step m.header.height y).1 ≤ l →
      l ≤ (spotWindow m.figures.step m.header.height y).2 →
      ∀ here, here = lineSums m.figures m.header.width (grayLine m.header.depth m.header.width line) →
      ∀ total, total = (if l = (spotWindow m.figures.step m.header.height y).1 then here
        else List.zipWith (· + ·) sums here) →
      takeLine m buffers l line sums mem = (total,
        if l = (spotWindow m.figures.step m.header.height y).2 then
          writeTargetRow mem m buffers (m.figures.oy + y) (targetRow m y total)
        else mem)) ∧
    ((∀ y < m.figures.oh, ¬((spotWindow m.figures.step m.header.height y).1 ≤ l ∧
        l ≤ (spotWindow m.figures.step m.header.height y).2)) →
      takeLine m buffers l line sums mem = (sums, mem))

/-- STORAGE_UPSET changes one stored bit of one check group and nothing else; a group none of whose bits differs is clean,
one with one differing bit correctable, any other uncorrectable; and a read covers the extent, writes correctable groups
back and delivers the spots as written. The stores, an unlisted spot read as 255 and the spots kept as written beside a mask
of the bits that differ are the model's form (log entry 9). -/
def Obligations.UpsetsAndReadsThroughEcc : Prop :=
  (blankSpot = 255#8 ∧ ∀ {α : Type} (unlisted value : α) (address a : Nat) (store : List (Nat × α)),
    sparseGet unlisted [] a = unlisted ∧ sparseGet unlisted ((address, value) :: store) a =
      if a = address then value else sparseGet unlisted store a) ∧
  (∀ (buffer row group bit : Nat) (s : State), buffer < 4096 → row < 1536 → group < 256 → bit < 72 → s.memory.wf = true →
    ∃ t, exec (.storageUpset buffer row group bit) s = .next t ∧ t = { s with memory := t.memory } ∧
      t.memory.spots = s.memory.spots ∧ t.memory.extents = s.memory.extents ∧
      ∀ n, sparseGet 0#72 t.memory.upsets n =
        if n = (buffer * 3145728 + row * 2048 + 8 * group) / 8 then
          sparseGet 0#72 s.memory.upsets n ^^^ BitVec.twoPow 72 bit
        else sparseGet 0#72 s.memory.upsets n) ∧
  (∀ bits : BitVec 72, (groupCondition bits = .clean ↔ ∀ i < 72, bits.getLsbD i = false) ∧
    (groupCondition bits = .correctable ↔ ∃ i < 72, ∀ j < 72, bits.getLsbD j = decide (j = i))) ∧
  ∀ (m : Memory) (f : Format) (buffer : Nat), m.wf = true →
    (m.readOutcome f buffer = .uncorrectable ↔
      ∃ n, groupInExtent f buffer n = true ∧ groupCondition (sparseGet 0#72 m.upsets n) = .uncorrectable) ∧
    (m.readOutcome f buffer = .clean ↔
      ∀ n, groupInExtent f buffer n = true → groupCondition (sparseGet 0#72 m.upsets n) = .clean) ∧
    (∀ n, sparseGet 0#72 (m.writeBack f buffer).upsets n =
      if groupInExtent f buffer n = true ∧ groupCondition (sparseGet 0#72 m.upsets n) = .correctable then 0#72
      else sparseGet 0#72 m.upsets n) ∧
    (m.writeBack f buffer).spots = m.spots ∧ (m.writeBack f buffer).extents = m.extents ∧
    ∀ x y, x < f.cellWidth → y < f.cellHeight →
      sparseGet blankSpot (m.content f buffer) (2048 * y + x) = m.spot buffer x y

/-! ## Exposure Arbiter -/

/-- LOAD ARBITRATION is MALFORMED with a body of any length but 32. One that is performed, in every state of the part, writes
the pending table and sets its flag and changes nothing else; the reply says whether one was replaced and counts the phases
that name each lane and the skips, 32 in all. -/
def Obligations.LoadArbitrationWritesPendingTable : Prop :=
  (∀ (s : State) (f : Frame) (rest : List Frame), s.lines.resetLine = false → s.port.waiting = f :: rest →
    f.byte 0 = 0x50#8 → f.body.length ≠ 32 → exec .loadArbitration s = .next (s.answered f rest .malformed [])) ∧
  (∀ f : Frame, (f.body.countP fun v => v.toNat == 0) + (f.body.countP fun v => v.toNat == 1) +
    (f.body.countP fun v => v.toNat == 2) + (f.body.countP fun v => v.toNat == 3) +
    (f.body.countP fun v => decide (4 ≤ v.toNat)) = f.body.length) ∧
  ∀ (s : State) (f : Frame) (rest : List Frame), Executes s .loadArbitration f rest →
    f.body.length = 32 ∧
    ∀ table : Vector Byte 32, (∀ p : Fin 32, f.body[p.val]? = some (table.get p)) →
      exec .loadArbitration s = .next
        (({ s with arbiter := { s.arbiter with pendingTable := table, pendingFlag := true } } : State).answered f rest .ok
          ([if s.arbiter.pendingFlag then 1 else 0] ++
            bytesOf 1 (f.body.countP fun v => v.toNat == 0) ++ bytesOf 1 (f.body.countP fun v => v.toNat == 1) ++
            bytesOf 1 (f.body.countP fun v => v.toNat == 2) ++ bytesOf 1 (f.body.countP fun v => v.toNat == 3) ++
            bytesOf 1 (f.body.countP fun v => decide (4 ≤ v.toNat))))

/-- A grant decision whose conditions do not all hold changes nothing; one that finds them holding activates a flagged
table and grants the head fiche of the first qualifying phase's lane, or by the fallback. That the asserted reset line stops
a decision is the model's reading (log entry 5). -/
def Obligations.GrantDecisionGrantsOneFiche : Prop :=
  (∀ s : State, s.lines.resetLine = true ∨ s.gate.state ≠ .idle ∨ s.gate.lamp ≠ .ready ∨ s.gate.film = 0 ∨
      (∀ l, s.queue l = []) → exec .grantDecision s = .next s) ∧
  ∀ (s : State) (a : Arbiter), s.lines.resetLine = false → s.gate.state = .idle → s.gate.lamp = .ready →
    1 ≤ s.gate.film →
    a = (if s.arbiter.pendingFlag then
      { s.arbiter with active := s.arbiter.pendingTable, pointer := 0, pendingFlag := false } else s.arbiter) →
    ∀ (l : LaneId) (c : CtxId) (rest : List CtxId) (x : Fiche) (pointer : Fin 32),
      s.queue l = c :: rest → s.fiche c = some x →
      ((∃ i : Fin 32, (a.active.get (a.pointer + i)).toNat = l.val ∧ pointer = a.pointer + i + 1 ∧
          ∀ j < i, ∀ n : LaneId, (a.active.get (a.pointer + j)).toNat = n.val → s.queue n = []) ∨
        ((∀ (i : Fin 32) (n : LaneId), (a.active.get i).toNat = n.val → s.queue n = []) ∧ pointer = a.pointer ∧
          ∃ d : Fin 4, l = a.lastLane + 1 + d ∧ ∀ e < d, s.queue (a.lastLane + 1 + e) = [])) →
      exec .grantDecision s = .next (s.conclude
        { (s.setQueue l rest).setContext c (some { x with state := .exposing, cellsDone := 0 }) with
          arbiter := { a with pointer := pointer, lastLane := l }
          gate := { s.gate with state := .advance c, step := some .advance, standby := none, film := s.gate.film - 1 } })

/-! ## Exposure Gate -/

/-- The glyph sizes and the strip's width. ADVANCE_DONE: the gate enters TITLE and exposes the strip laid out from the
context's lines; title clipped is set when line 2 or a character of a kept line is dropped. Without an advance in flight
nothing changes (the model's reading, log entry 4). -/
def Obligations.AdvanceDoneExposesTitle : Prop :=
  ([TitleSize.normal, .wide, .tall, .large].map TitleSize.glyphWidth = [320, 640, 320, 640] ∧
    [TitleSize.normal, .wide, .tall, .large].map TitleSize.glyphHeight = [480, 480, 960, 960] ∧
    ∀ f : Format, f.stripWidth = f.columns * f.cellWidth) ∧
  (∀ s : State, (∀ c, s.gate.state ≠ .advance c) → exec .advanceDone s = .next s) ∧
  (∀ (f : Format) (l1 : TitleLine) (n : Nat), titleClips f [l1] n = true ↔
    f.stripWidth < l1.text.length * l1.size.glyphWidth) ∧
  (∀ (f : Format) (l1 l2 : TitleLine) (n : Nat), titleClips f [l1, l2] n = true ↔
    f.stripWidth < l1.text.length * l1.size.glyphWidth ∨
    1440 < l1.size.glyphHeight + 16 * n + l2.size.glyphHeight ∨
    f.stripWidth < l2.text.length * l2.size.glyphWidth) ∧
  ∀ (s : State) (c : CtxId) (x : Fiche), s.gate.state = .advance c → s.fiche c = some x →
    exec .advanceDone s = .next
      { s.setContext c (some { x with titleClipped := x.titleClipped || titleClips x.format x.lines x.spacing }) with
        gate := { s.gate with
          state := .title c
          step := some (.expose 0 0 (.title x.format x.lines x.spacing)
            ⟨x.polarity, (s.gate.curves.get x.curve).active, x.gain, x.bias⟩)
          standby := none } }

/-- TITLE_DONE and CELL_DONE reach the next OCCUPIED cell: a page read CLEAN or CORRECTED is shown, and saturates its cell
when a spot clamps; an UNCORRECTABLE read makes it DAMAGED; a DAMAGED cell is read again; a MISSING one is not. The first
clauses give line 2 of a placeholder and the number of groups a read finds. That a buffer with no written extent is read in
the fiche's format is the model's choice (log entry 19); AWAITING cells, and PRESENT and DAMAGED cells without a buffer, which
no run reaches (log entry 19), are left out. -/
def Obligations.ReachedCellIsShown : Prop :=
  (∀ o : Occupied, placeholderLine2 o = decimal 15 o.key.toNat ++ asciiText " P" ++ decimal 2 o.page ++
    match o.half with
    | .whole => []
    | .left => asciiText " L"
    | .right => asciiText " R") ∧
  (∀ (m : Memory) (e : Format) (b : Nat) (condition : GroupCondition), m.wf = true → condition ≠ .clean →
    m.countGroups e b condition = Set.ncard
      {n : Nat | inExtent e b (8 * n) = true ∧ groupCondition (sparseGet 0#72 m.upsets n) = condition}) ∧
  ∀ (s base : State) (cmd : Instr) (c : CtxId) (current start cell : Nat) (x : Fiche) (o : Occupied) (settings : DriveSettings)
    (show' : State → Picture → State),
    (cmd = .titleDone ∧ s.gate.state = .title c ∧ start = 0 ∧ base = s) ∨
      (cmd = .cellDone ∧ s.gate.state = .cells c current ∧ start = current + 1 ∧
        base = s.modifyFiche c fun y => { y with cellsDone := y.cellsDone + 1 }) →
    base.fiche c = some x → start ≤ cell → x.cells[cell]? = some (.occupied o) →
    (∀ j, start ≤ j → j < cell → ∀ o', x.cells[j]? ≠ some (.occupied o')) →
    settings = ⟨x.polarity, (s.gate.curves.get x.curve).active, x.gain, x.bias⟩ →
    (∀ t p, show' t p = { t with gate := { s.gate with
      state := .cells c cell
      step := some (.expose (cell % x.format.columns * x.format.cellWidth)
        (1440 + cell / x.format.columns * x.format.cellHeight) p settings)
      standby := none } }) →
    (o.image = .missing → exec cmd s = .next
      (show' base (.placeholder x.format (asciiText "PAGE NOT RECEIVED") (placeholderLine2 o)))) ∧
    ∀ b e found, o.buffer = some b → e = (s.memory.extent b).getD x.format →
      found = s.memory.countGroups e b .correctable →
      (o.image = .present → s.memory.readOutcome e b ≠ .uncorrectable →
        (pageClamps settings e (s.memory.content e b) = false → exec cmd s = .next (show'
          { base.setContext c (some { x with corrected := min 65535 (x.corrected + found) }) with
            memory := s.memory.writeBack e b
            port := { s.port with counters := { s.port.counters with
              correctedEcc := min 65535 (s.port.counters.correctedEcc + found)
              uncorrectableEcc := min 65535 s.port.counters.uncorrectableEcc } } }
          (.page e (s.memory.content e b)))) ∧
        (pageClamps settings e (s.memory.content e b) = true → exec cmd s = .next (show'
          { base.setContext c (some { x with
              corrected := min 65535 (x.corrected + found)
              cells := x.cells.set cell (.occupied { o with saturated := true })
              saturatedCells := min 65535 (x.saturatedCells + 1) }) with
            memory := s.memory.writeBack e b
            port := { s.port with counters := { s.port.counters with
              correctedEcc := min 65535 (s.port.counters.correctedEcc + found)
              uncorrectableEcc := min 65535 s.port.counters.uncorrectableEcc
              saturatedCells := min 65535 (s.port.counters.saturatedCells + 1) } } }
          (.page e (s.memory.content e b))))) ∧
      (o.image = .present ∨ o.image = .damaged → s.memory.readOutcome e b = .uncorrectable → exec cmd s = .next (show'
        { base.setContext c (some { x with
            corrected := min 65535 (x.corrected + found)
            cells := x.cells.set cell (.occupied { o with image := .damaged }) }) with
          memory := s.memory.writeBack e b
          port := { s.port with
            flags := s.port.flags ||| BitVec.twoPow 24 (4 * x.lane.val + 3)
            counters := { s.port.counters with
              correctedEcc := min 65535 (s.port.counters.correctedEcc + found)
              uncorrectableEcc := min 65535 (s.port.counters.uncorrectableEcc + 1) } } }
        (.placeholder x.format (asciiText "PAGE DAMAGED") (placeholderLine2 o)))) ∧
      (o.image = .damaged → s.memory.readOutcome e b ≠ .uncorrectable → exec cmd s = .next (show'
        { base.setContext c (some { x with corrected := min 65535 (x.corrected + found) }) with
          memory := s.memory.writeBack e b
          port := { s.port with counters := { s.port.counters with
            correctedEcc := min 65535 (s.port.counters.correctedEcc + found)
            uncorrectableEcc := min 65535 s.port.counters.uncorrectableEcc } } }
        (.placeholder x.format (asciiText "PAGE DAMAGED") (placeholderLine2 o))))

/-- The printed address of a cell: the row letter, then the column counted from 1 in two digits; decimal digits,
zero-padded; and the index line made of them. After the last OCCUPIED cell the gate cuts a fiche with k = 0 and exposes
the first index cell of another, from the list formed then; each INDEX_CELL_DONE exposes the next index cell from the same
list, or cuts after the last. -/
def Obligations.IndexFollowsPageCells : Prop :=
  ([Format.g1, .g2, .g3, .g4].map Format.rows = [6, 9, 12, 15] ∧
    [Format.g1, .g2, .g3, .g4].map Format.columns = [12, 16, 20, 24] ∧
    ∀ (f : Format) (cell : Nat), f.cells = f.rows * f.columns ∧ printedCell f cell =
      [65 + cell / f.columns, 48 + (cell % f.columns + 1) / 10, 48 + (cell % f.columns + 1) % 10]) ∧
  (∀ width n : Nat, (decimal width n).length = width ∧
    ∀ i, i < width → (decimal width n)[i]? = some (48 + n / 10 ^ (width - 1 - i) % 10)) ∧
  (∀ (s : State) (f : Format) (r : Record) (p : RecordPart), s.indexLine f r p =
    decimal 15 r.key.toNat ++ [32] ++ printedCell f p.firstCell ++ [32] ++ decimal 2 p.pages ++ [32] ++
      [if s.partHas r p .damaged then 68 else if s.partHas r p .missing then 73
        else if r.parts.length = 2 then 67 else 32]) ∧
  (∀ (s base : State) (cmd : Instr) (c : CtxId) (current start : Nat) (x : Fiche) (list : List Text),
    (cmd = .titleDone ∧ s.gate.state = .title c ∧ start = 0 ∧ base = s) ∨
      (cmd = .cellDone ∧ s.gate.state = .cells c current ∧ start = current + 1 ∧
        base = s.modifyFiche c fun y => { y with cellsDone := y.cellsDone + 1 }) →
    base.fiche c = some x → (∀ j o, start ≤ j → x.cells[j]? ≠ some (.occupied o)) →
    list = s.directory.flatMap (fun r =>
      (r.parts.filter fun p => p.ctx == c).map fun p => s.indexLine x.format r p) →
    (x.k = 0 → exec cmd s = .next { base with
      gate := { s.gate with state := .cut c, step := some .cut, standby := none } }) ∧
    (x.k ≠ 0 → exec cmd s = .next { base with gate := { s.gate with
      state := .index c (x.format.cells - x.k.val) list
      step := some (.expose ((x.format.cells - x.k.val) % x.format.columns * x.format.cellWidth)
        (1440 + (x.format.cells - x.k.val) / x.format.columns * x.format.cellHeight)
        (.index x.format (list.take x.format.indexEntries))
        ⟨x.polarity, (s.gate.curves.get x.curve).active, x.gain, x.bias⟩)
      standby := none } })) ∧
  ∀ (s : State) (c : CtxId) (current : Nat) (list : List Text) (x : Fiche),
    s.gate.state = .index c current list → s.fiche c = some x →
    (current + 1 < x.format.cells → exec .indexCellDone s = .next
      { s.setContext c (some { x with cellsDone := x.cellsDone + 1 }) with gate := { s.gate with
        state := .index c (current + 1) list
        step := some (.expose ((current + 1) % x.format.columns * x.format.cellWidth)
          (1440 + (current + 1) / x.format.columns * x.format.cellHeight)
          (.index x.format ((list.drop ((current + 1 - (x.format.cells - x.k.val)) * x.format.indexEntries)).take
            x.format.indexEntries))
          ⟨x.polarity, (s.gate.curves.get x.curve).active, x.gain, x.bias⟩)
        standby := none } }) ∧
    (x.format.cells ≤ current + 1 → exec .indexCellDone s = .next
      { s.setContext c (some { x with cellsDone := x.cellsDone + 1 }) with
        gate := { s.gate with state := .cut c, step := some .cut, standby := none } })

/-- CUT_COMPLETION: the context is EXPOSED and holds no buffer, EXPOSED of its lane is set, fences settle, curves are
activated and the standby timer starts afresh when the lamp is READY; SPOIL_COMPLETION does the last two alone. Either
changes nothing while no such cut is in flight (the model's reading, log entry 4). -/
def Obligations.CutAndSpoilDeliverSheets : Prop :=
  (∀ (s : State) (c : CtxId) (x : Fiche), s.gate.state = .cut c → s.fiche c = some x →
    exec .cutCompletion s = .next (s.conclude (State.stallTest
      { ((s.setContext c (some { x with
            state := .exposed
            cells := x.cells.map (Cell.modify fun o => { o with buffer := none }) })).setLaneFlag x.lane
              .exposed).settleFences c .exposed with
        gate := { s.gate with
          state := .idle, step := none
          standby := if s.gate.lamp = .ready then
            some (60 * if s.gate.standbyPeriod = 0 then 90 else s.gate.standbyPeriod) else none
          curves := s.gate.curves.map fun k =>
            if k.pendingFlag then { k with active := k.pendingCopy, pendingFlag := false } else k } }))) ∧
  (∀ s : State, s.gate.state = .spoil →
    exec .spoilCompletion s = .next (s.conclude { s with
      gate := { s.gate with
        state := .idle, step := none
        standby := if s.gate.lamp = .ready then
          some (60 * if s.gate.standbyPeriod = 0 then 90 else s.gate.standbyPeriod) else none
        curves := s.gate.curves.map fun k =>
          if k.pendingFlag then { k with active := k.pendingCopy, pendingFlag := false } else k } })) ∧
  (∀ s : State, (∀ c, s.gate.state ≠ .cut c) → exec .cutCompletion s = .next s) ∧
  (∀ s : State, s.gate.state ≠ .spoil → exec .spoilCompletion s = .next s) ∧
  ∀ (l : LaneId), laneFlagBit l .exposed = 4 * l.val ∧ laneFlagBit l .failed = 4 * l.val + 1 ∧
    laneFlagBit l .missing = 4 * l.val + 2 ∧ laneFlagBit l .damaged = 4 * l.val + 3

/-- JAM and DOOR_OPEN: TRANSPORT is set and the gate stops; an exposure is spoiled and its fiche put back at the head of its
queue, or FAILED at its third interruption; a door-open makes the film count 0. A gate that was IDLE or STOPPED leaves
flagged curves pending (the model's reading, log entry 20). That neither has an effect while the reset line is asserted is
the model's reading (log entry 5). -/
def Obligations.JamAndDoorOpenStopGate : Prop :=
  (∀ s : State, s.lines.resetLine = true → exec .jam s = .next s ∧ exec .doorOpen s = .next s) ∧
  (∀ (s : State) (c : CtxId) (x : Fiche), s.fiche c = some x →
    (x.attempts < 2 → s.interruptFiche c = (s.setContext c (some { x with
      attempts := x.attempts + 1, state := .queued, cellsDone := 0 })).setQueue x.lane (c :: s.queue x.lane)) ∧
    (2 ≤ x.attempts → s.interruptFiche c = ((s.setContext c (some { x with
      state := .failed, attempts := x.attempts + 1, cellsDone := 0 })).setFlag (4 * x.lane.val + 1)).settleFences c
        .notExposed)) ∧
  ∀ (s stopped : State), s.lines.resetLine = false →
    (s.gate.state = .idle ∨ s.gate.state = .stopped → stopped = { s with
      port := { s.port with flags := s.port.flags ||| BitVec.twoPow 24 20 }
      gate := { s.gate with state := .stopped, step := none, standby := none } }) →
    (s.gate.state = .spoil → stopped = { s with
      port := { s.port with flags := s.port.flags ||| BitVec.twoPow 24 20 }
      gate := { s.gate with
        state := .stopped, step := none, standby := none
        curves := s.gate.curves.map fun k =>
          if k.pendingFlag then { k with active := k.pendingCopy, pendingFlag := false } else k } }) →
    (∀ c, s.gate.state = .advance c ∨ s.gate.state = .title c ∨ (∃ n, s.gate.state = .cells c n) ∨
        (∃ n list, s.gate.state = .index c n list) ∨ s.gate.state = .cut c →
      stopped = { State.interruptFiche { s with port := { s.port with
          flags := s.port.flags ||| BitVec.twoPow 24 20
          counters := { s.port.counters with spoiledSheets := min 65535 (s.port.counters.spoiledSheets + 1) } } } c with
        gate := { s.gate with
          state := .stopped, step := none, standby := none
          curves := s.gate.curves.map fun k =>
            if k.pendingFlag then { k with active := k.pendingCopy, pendingFlag := false } else k } }) →
    exec .jam s = .next (s.conclude stopped) ∧
    exec .doorOpen s = .next (s.conclude { stopped with gate := { stopped.gate with film := 0 } })

/-- LOAD CURVE: a curve above 3 is MALFORMED; the entries, lowered to 4095, become the pending copy, activated at once in
IDLE and STOPPED. SET FILM: BUSY outside IDLE and STOPPED; the count, lowered to 4095, is stored and a count above 0 takes
STOPPED to IDLE. One byte for the gate state in its reply is the model's reading (log entry 32). -/
def Obligations.CurvesAndFilmAreSet : Prop :=
  (∀ (s : State) (f : Frame) (rest : List Frame), Executes s .loadCurve f rest →
    (4 ≤ field f.body 0 1 → exec .loadCurve s = .next (s.answered f rest .malformed [])) ∧
    ∀ (n : Fin 4) (entries : Vector Nat 17), field f.body 0 1 = n.val →
      (∀ i : Fin 17, entries.get i = min 4095 (field f.body (1 + 2 * i.val) 2)) →
      exec .loadCurve s = .next
        (({ s with gate := { s.gate with
            curves := s.gate.curves.set n.val (
              if s.gate.state = .idle ∨ s.gate.state = .stopped then ⟨entries, entries, false⟩
              else ⟨(s.gate.curves.get n).active, entries, true⟩) } } : State).answered f rest .ok
          (bytesOf 1 n.val ++
            bytesOf 1 ((List.range 17).countP fun i => decide (4095 < field f.body (1 + 2 * i) 2)) ++
            [if s.gate.state = .idle ∨ s.gate.state = .stopped then 1 else 0]))) ∧
  ∀ (s : State) (f : Frame) (rest : List Frame), Executes s .setFilm f rest →
    (s.gate.state ≠ .idle → s.gate.state ≠ .stopped → exec .setFilm s = .next (s.answered f rest .busy [])) ∧
    (s.gate.state = .idle ∨ (s.gate.state = .stopped ∧ field f.body 0 2 = 0) →
      exec .setFilm s = .next
        ((s.conclude { s with gate := { s.gate with film := min 4095 (field f.body 0 2) } }).answered f rest .ok
          (bytesOf 2 (min 4095 (field f.body 0 2)) ++ [if 4095 < field f.body 0 2 then 1 else 0] ++
            [if s.gate.state = .idle then 0 else 7]))) ∧
    (s.gate.state = .stopped → field f.body 0 2 ≠ 0 →
      exec .setFilm s = .next
        ((s.conclude { s with gate := { s.gate with
            film := min 4095 (field f.body 0 2), state := .idle, step := none
            standby := if s.gate.lamp = .ready then
              some (60 * if s.gate.standbyPeriod = 0 then 90 else s.gate.standbyPeriod) else none } }).answered
            f rest .ok
          (bytesOf 2 (min 4095 (field f.body 0 2)) ++ [if 4095 < field f.body 0 2 then 1 else 0] ++ [0])))

/-- The regions' sizes in spots and the gray values of pages (the spots of their buffer), title strips, index cells and
placeholders, from glyphs whose dots are 0 or 255 (which dots are ink is
a free value, log entry 11); the drive value of a spot: interpolation in the curve truncated toward zero, gain, bias and
clamp; and a page saturates its cell exactly when some spot of its extent is clamped. -/
def Obligations.DriveValuesFollowCurve : Prop :=
  ([Format.g1, .g2, .g3, .g4].map Format.cellWidth = [2048, 1536, 1280, 1024] ∧
    [Format.g1, .g2, .g3, .g4].map Format.cellHeight = [1536, 1152, 960, 768]) ∧
  (∀ (f : Format) (lines : List TitleLine) (spacing : Nat) (text1 text2 : Text) (texts : List Text) (p : Picture),
    ((Picture.title f lines spacing).width = f.columns * f.cellWidth ∧ (Picture.title f lines spacing).height = 1440) ∧
    (p = .placeholder f text1 text2 ∨ p = .index f texts → p.width = f.cellWidth ∧ p.height = f.cellHeight)) ∧
  (∀ (m : Memory) (f : Format) (buffer x y : Nat) (spots : List Host.Cell),
    ((Picture.page f spots).width = f.cellWidth ∧ (Picture.page f spots).height = f.cellHeight) ∧
    (Picture.page f spots).gray x y = (sparseGet blankSpot spots (2048 * y + x)).toNat ∧
    (m.wf = true → x < f.cellWidth → y < f.cellHeight →
      (Picture.page f (m.content f buffer)).gray x y = (m.spot buffer x y).toNat)) ∧
  (∀ code column row : Nat, (glyphGray code column row = 0 ∨ glyphGray code column row = 255) ∧
    (7 ≤ column ∨ 11 ≤ row ∨ code = 32 → glyphGray code column row = 255) ∧
    (code < 32 ∨ 126 < code → glyphGray code column row = glyphGray 63 column row)) ∧
  (∀ (text : Text) (x0 y0 w h : Nat), 0 < w →
    (∀ j code dx dy, text[j]? = some code → dx < 8 * w → dy < 12 * h →
      textGray text x0 y0 w h (x0 + j * (8 * w) + dx) (y0 + dy) = glyphGray code (dx / w) (dy / h)) ∧
    ∀ x y, x < x0 ∨ x0 + text.length * (8 * w) ≤ x ∨ y < y0 ∨ y0 + 12 * h ≤ y →
      textGray text x0 y0 w h x y = 255) ∧
  (∀ (f : Format) (spacing x y : Nat) (dot : TitleSize → Nat × Nat) (line : TitleLine → Nat → Nat),
    dot .normal = (40, 40) → dot .wide = (80, 40) → dot .tall = (40, 80) → dot .large = (80, 80) →
    (∀ l top, line l top =
      textGray (l.text.take (f.stripWidth / (8 * (dot l.size).1))) 0 top (dot l.size).1 (dot l.size).2 x y) →
    (∀ l, (Picture.title f [l] spacing).gray x y = line l 0) ∧
    ∀ l1 l2, (y < 12 * (dot l1.size).2 → (Picture.title f [l1, l2] spacing).gray x y = line l1 0) ∧
      (12 * (dot l1.size).2 ≤ y → (Picture.title f [l1, l2] spacing).gray x y =
        if 12 * (dot l1.size).2 + 16 * spacing + 12 * (dot l2.size).2 ≤ 1440 then
          line l2 (12 * (dot l1.size).2 + 16 * spacing) else 255)) ∧
  (∀ (f : Format) (lines : List Text) (x y : Nat),
    (∀ text, lines[y / 32]? = some text → (Picture.index f lines).gray x y =
      textGray text ((f.cellWidth - 384) / 2) (32 * (y / 32) + 4) 2 2 x y) ∧
    (lines[y / 32]? = none → (Picture.index f lines).gray x y = 255)) ∧
  (∀ (f : Format) (text1 text2 : Text) (x y top : Nat), top = (f.cellHeight - 112) / 2 →
    (y < top + 64 → (Picture.placeholder f text1 text2).gray x y =
      textGray text1 ((f.cellWidth - 32 * text1.length) / 2) top 4 4 x y) ∧
    (top + 64 ≤ y → (Picture.placeholder f text1 text2).gray x y =
      textGray text2 ((f.cellWidth - 32 * text2.length) / 2) (top + 64) 4 4 x y)) ∧
  (∀ (x0 y0 : Nat) (p : Picture) (d : DriveSettings) (x y : Nat), x < p.width → y < p.height →
    ((Step.expose x0 y0 p d).driveRows[y]?.bind fun row => row[x]?) = some (driveValue d (p.gray x y))) ∧
  (∀ (d : DriveSettings) (g h : Nat), g ≤ 255 →
    h = (match d.polarity with
      | .negative => g
      | .positive => 255 - g) →
    ∀ (lo hi : Nat) (c : Int), d.curve[h / 16]? = some lo → d.curve[h / 16 + 1]? = some hi →
      c = (lo : Int) + (((hi : Int) - (lo : Int)) * ((h % 16 : Nat) : Int)).tdiv 16 →
      0 ≤ c ∧ (lo ≤ 4095 → hi ≤ 4095 → c ≤ 4095) ∧
      driveValue d g = min 16383 (c.toNat * d.gain / 1024 + d.bias) ∧
      (clamps d g = true ↔ 16383 < c.toNat * d.gain / 1024 + d.bias)) ∧
  (∀ (step : Step) (row : List Nat), row ∈ step.driveRows → ∀ v ∈ row, v ≤ 16383) ∧
  ∀ (m : Memory) (f : Format) (buffer : Nat) (d : DriveSettings), m.wf = true →
    (pageClamps d f (m.content f buffer) = true ↔
      ∃ x < f.cellWidth, ∃ y < f.cellHeight, clamps d (m.spot buffer x y).toNat = true)

/-! ## The lamp -/

/-- SET STANDBY, and LAMP by action and lamp state: the change, or the refusal with the lamp state. That LAMP_ON is the row
that executes a LAMP of no known action is the model's choice (log entry 2), and one byte for a lamp state its reading (log
entry 32). -/
def Obligations.StandbyAndLampRequests : Prop :=
  (∀ (s : State) (f : Frame) (rest : List Frame), Executes s .setStandby f rest →
    exec .setStandby s = .next
      (({ s with gate := { s.gate with standbyPeriod := field f.body 0 1 } } : State).answered f rest .ok
        (bytesOf 1 (field f.body 0 1) ++ bytesOf 1 (if field f.body 0 1 = 0 then 90 else field f.body 0 1)))) ∧
  (∀ (s : State) (f : Frame) (rest : List Frame), Executes s .lampOn f rest →
    (3 ≤ field f.body 0 1 → exec .lampOn s = .next (s.answered f rest .malformed (bytesOf 1 s.gate.lamp.code))) ∧
    (field f.body 0 1 = 0 →
      (s.gate.lamp = .off ∨ s.gate.lamp = .standby → exec .lampOn s = .next
        (({ s with gate := { s.gate with lamp := .warming, warmUp := some 120, standby := none } } : State).answered
          f rest .ok (bytesOf 1 s.gate.lamp.code ++ [1]))) ∧
      (s.gate.lamp = .warming ∨ s.gate.lamp = .ready → exec .lampOn s = .next
        (s.answered f rest .ok (bytesOf 1 s.gate.lamp.code ++ bytesOf 1 s.gate.lamp.code))) ∧
      (s.gate.lamp = .fault → exec .lampOn s = .next (s.answered f rest .state [4])))) ∧
  (∀ (s : State) (f : Frame) (rest : List Frame), Executes s .lampOff f rest →
    (s.gate.lamp = .fault → exec .lampOff s = .next (s.answered f rest .state [4])) ∧
    (s.gate.lamp ≠ .fault → s.gate.state ≠ .idle → s.gate.state ≠ .stopped →
      exec .lampOff s = .next (s.answered f rest .busy (bytesOf 1 s.gate.lamp.code))) ∧
    (s.gate.lamp ≠ .fault → s.gate.state = .idle ∨ s.gate.state = .stopped →
      exec .lampOff s = .next
        (({ s with gate := { s.gate with lamp := .off, warmUp := none, standby := none } } : State).answered f rest .ok
          (bytesOf 1 s.gate.lamp.code ++ [0])))) ∧
  ∀ (s : State) (f : Frame) (rest : List Frame), Executes s .lampClear f rest →
    (s.gate.lamp ≠ .fault →
      exec .lampClear s = .next (s.answered f rest .state (bytesOf 1 s.gate.lamp.code))) ∧
    (s.gate.lamp = .fault → exec .lampClear s = .next
      (({ s with gate := { s.gate with lamp := .off, warmUp := none, standby := none } } : State).answered f rest .ok
        [4, 0]))

/-- The lamp-unit events and the lamp's timers, by lamp state; a lamp fault that meets an exposure spoils its sheet and
interrupts its fiche. An expiry while its timer does not run does not happen and changes nothing (the model's reading, log
entry 4), nor does the lamp-stable or the lamp-fault event while the reset line is asserted (its reading, log entry 5). -/
def Obligations.LampEventsByLampState : Prop :=
  (∀ s : State, s.lines.resetLine = true → exec .lampStable s = .next s ∧ exec .lampFault s = .next s) ∧
  (∀ s : State, s.lines.resetLine = false → s.gate.lamp = .warming → exec .lampStable s = .next { s with
    gate := { s.gate with
      lamp := .ready, warmUp := none
      standby := if s.gate.state = .idle then
        some (60 * if s.gate.standbyPeriod = 0 then 90 else s.gate.standbyPeriod) else none } }) ∧
  (∀ s : State, s.gate.lamp ≠ .warming → exec .lampStable s = .next s ∧ exec .warmUpExpiry s = .next s) ∧
  (∀ s : State, s.gate.lamp = .warming → exec .warmUpExpiry s = .next { s with
    port := { s.port with flags := s.port.flags ||| BitVec.twoPow 24 21 }
    gate := { s.gate with lamp := .fault, warmUp := none, standby := none } }) ∧
  (∀ s : State, s.gate.standby ≠ none → exec .standbyExpiry s = .next (s.conclude { s with
    gate := { s.gate with lamp := .standby, warmUp := none, standby := none } })) ∧
  (∀ s : State, s.gate.standby = none → exec .standbyExpiry s = .next s) ∧
  ∀ s : State, s.lines.resetLine = false →
    (s.gate.lamp = .off → exec .lampFault s = .next s) ∧
    (s.gate.lamp = .fault → exec .lampFault s = .next { s with
      port := { s.port with flags := s.port.flags ||| BitVec.twoPow 24 21 } }) ∧
    (s.gate.lamp ≠ .off → s.gate.lamp ≠ .fault →
      (s.gate.state = .idle ∨ s.gate.state = .spoil ∨ s.gate.state = .stopped →
        exec .lampFault s = .next { s with
          port := { s.port with flags := s.port.flags ||| BitVec.twoPow 24 21 }
          gate := { s.gate with lamp := .fault, warmUp := none, standby := none } }) ∧
      ∀ c, s.gate.state = .advance c ∨ s.gate.state = .title c ∨ (∃ n, s.gate.state = .cells c n) ∨
          (∃ n list, s.gate.state = .index c n list) ∨ s.gate.state = .cut c →
        exec .lampFault s = .next (s.conclude
          { State.interruptFiche { s with port := { s.port with
              flags := s.port.flags ||| BitVec.twoPow 24 21
              counters := { s.port.counters with spoiledSheets := min 65535 (s.port.counters.spoiledSheets + 1) } } } c with
            gate := { s.gate with
              lamp := .fault, warmUp := none, state := .spoil, step := some .spoilCut, standby := none } }))

/-! ## Request Link -/

/-- READ STATUS changes nothing and reports every block in the layout of the rule, 239 bytes. The first
clauses give the bytes of a number, most significant first, and the state codes. The lines of a DISCARDING transfer are the
whole lines dropped; those of a STALLED one are the model's reading (log entry 26). -/
def Obligations.ReadStatusReportsEveryBlock : Prop :=
  (∀ width n : Nat, (bytesOf width n).length = width ∧
    ∀ i, i < width → (bytesOf width n)[i]? = some (BitVec.ofNat 8 (n / 256 ^ (width - 1 - i)))) ∧
  ([FicheState.composing, .closing, .queued, .exposing, .exposed, .failed].map FicheState.code = [1, 2, 3, 4, 5, 6] ∧
    [LampState.off, .warming, .ready, .standby, .fault].map LampState.code = [0, 1, 2, 3, 4] ∧
    ∀ (c : CtxId) (n : Nat) (list : List Text),
      [GateState.idle, .advance c, .title c, .cells c n, .index c n list, .cut c, .spoil, .stopped].map GateState.code =
        [0, 1, 2, 3, 4, 5, 6, 7]) ∧
  (∀ (s : State) (c : CtxId) (x : Fiche), s.fiche c = some x → s.serialOf c = x.serial) ∧
  (∀ (g : GateState) (c : CtxId), g.underExposure = some c ↔
    g = .advance c ∨ g = .title c ∨ (∃ n, g = .cells c n) ∨ (∃ n list, g = .index c n list) ∨ g = .cut c) ∧
  ∀ (s : State) (f : Frame) (rest : List Frame) (transfer : Header → List Byte), Executes s .readStatus f rest →
    (∀ h, transfer h = [1] ++ bytesOf 6 h.key.toNat ++ bytesOf 1 h.page ++ bytesOf 2 h.width ++ bytesOf 2 h.height) →
    ∃ body, exec .readStatus s = .next (s.answered f rest .ok body) ∧
      ((∀ l, (s.queue l).length ≤ 8) → body.length = 239) ∧
      body =
        bytesOf 1 (s.port.waiting.length + s.port.outbound.countP (fun r => r.completion != .queueFull) +
          s.port.fences.length) ++
        bytesOf 1 s.port.fences.length ++ ([if s.port.flags &&& s.port.mask = 0#24 then 0 else 1] : List Byte) ++
        ((List.finRange 4).flatMap fun l => match (s.lane l).definition with
          | none => ([0] : List Byte)
          | some d => [if d.enabled then 1 else 2]) ++
        ((List.finRange 4).flatMap fun l => bytesOf 3 (s.lane l).nextSerial) ++
        bytesOf 2 s.directory.length ++
        ((List.finRange 8).flatMap fun c => match s.fiche c with
          | none => ([0] : List Byte)
          | some x => bytesOf 1 x.state.code) ++
        ((List.finRange 4).flatMap fun l => bytesOf 1 (s.queue l).length ++
          ((s.queue l).flatMap fun c => bytesOf 1 c.val ++ bytesOf 3 (s.serialOf c)) ++
          List.replicate (4 * (8 - (s.queue l).length)) (0 : Byte)) ++
        (match s.intake with
          | .ready taken => [0] ++ bytesOf 1 taken.length ++ List.replicate 12 (0 : Byte) ++ [0] ++ [0, 0] ++ [0]
          | .stalled m => [1] ++ [0] ++ transfer m.header ++ [1] ++ [0, 0] ++ [0]
          | .receiving m buffers lines _ _ => [2] ++ [0] ++ transfer m.header ++ [1] ++ bytesOf 2 lines ++
            bytesOf 1 buffers.length
          | .discarding h judgment toDrop => [3] ++ [0] ++ transfer h ++ [if judgment = .orphan then 2 else 3] ++
            bytesOf 2 ((h.height * ((h.width * (if h.depth = 1 then 1 else 8) + 7) / 8) - toDrop) /
              ((h.width * (if h.depth = 1 then 1 else 8) + 7) / 8)) ++ [0]) ++
        bytesOf 2 s.freePool.length ++ s.arbiter.active.toList ++ ([if s.arbiter.pendingFlag then 1 else 0] : List Byte) ++
        bytesOf 1 s.arbiter.pointer.val ++ bytesOf 1 s.arbiter.lastLane.val ++ bytesOf 1 s.gate.state.code ++
        (match s.gate.state.underExposure with
          | none => List.replicate 5 (0 : Byte)
          | some c => [1] ++ bytesOf 1 c.val ++ bytesOf 3 (s.serialOf c)) ++
        (match s.gate.state with
          | .cells c n | .index c n _ => [1] ++ bytesOf 2 n ++ textBytes (printedCell (s.formatOf c) n)
          | .idle | .advance _ | .title _ | .cut _ | .spoil | .stopped => List.replicate 6 (0 : Byte)) ++
        bytesOf 2 s.gate.film ++ bytesOf 1 s.gate.lamp.code ++ bytesOf 1 s.gate.standbyPeriod ++
        bytesOf 1 (if s.gate.standbyPeriod = 0 then 90 else s.gate.standbyPeriod) ++
        (match s.gate.warmUp with
          | none => ([0, 0] : List Byte)
          | some n => [1] ++ bytesOf 1 n) ++
        (match s.gate.standby with
          | none => ([0, 0, 0] : List Byte)
          | some n => [1] ++ bytesOf 2 n) ++
        bytesOf 1 ((if (s.gate.curves.get 0).pendingFlag then 1 else 0) +
          (if (s.gate.curves.get 1).pendingFlag then 2 else 0) + (if (s.gate.curves.get 2).pendingFlag then 4 else 0) +
          if (s.gate.curves.get 3).pendingFlag then 8 else 0)

/-- READ ATTENTION, SET ATTENTION MASK and READ COUNTERS: MALFORMED operands, and what each reads, clears or sets; and the
attention line, asserted while an enabled flag is set and the reset line is not asserted. -/
def Obligations.AttentionAndCounterRequests : Prop :=
  (∀ k : Counters, k.list = [k.correctedEcc, k.uncorrectableEcc, k.spoiledSheets, k.orphanImages, k.lateImages,
    k.missingPlaceholders, k.saturatedCells]) ∧
  (∀ (s : State) (f : Frame) (rest : List Frame) (v : BitVec 24), Executes s .readAttention f rest →
    v = BitVec.ofNat 24 (field f.body 0 3) →
    (v.getLsbD 22 = true ∨ v.getLsbD 23 = true →
      exec .readAttention s = .next (s.answered f rest .malformed [])) ∧
    (v.getLsbD 22 = false → v.getLsbD 23 = false →
      exec .readAttention s = .next
        (({ s with port := { s.port with flags := s.port.flags &&& ~~~v } } : State).answered f rest .ok
          (bytesOf 3 s.port.flags.toNat ++ bytesOf 3 s.port.mask.toNat ++ bytesOf 3 (s.port.flags &&& ~~~v).toNat)))) ∧
  (∀ (s : State) (f : Frame) (rest : List Frame) (v : BitVec 24), Executes s .setAttentionMask f rest →
    v = BitVec.ofNat 24 (field f.body 0 3) →
    (v.getLsbD 22 = true ∨ v.getLsbD 23 = true →
      exec .setAttentionMask s = .next (s.answered f rest .malformed [])) ∧
    (v.getLsbD 22 = false → v.getLsbD 23 = false →
      exec .setAttentionMask s = .next
        (({ s with port := { s.port with mask := v } } : State).answered f rest .ok
          (bytesOf 3 s.port.mask.toNat ++ bytesOf 3 v.toNat ++ bytesOf 3 s.port.flags.toNat)))) ∧
  (∀ s : State, s.attentionLine = true ↔ s.lines.resetLine = false ∧
    ∃ i < 24, s.port.flags.getLsbD i = true ∧ s.port.mask.getLsbD i = true) ∧
  ∀ (s : State) (f : Frame) (rest : List Frame) (read : List Byte), Executes s .readCounters f rest →
    read = bytesOf 2 s.port.counters.correctedEcc ++ bytesOf 2 s.port.counters.uncorrectableEcc ++
      bytesOf 2 s.port.counters.spoiledSheets ++ bytesOf 2 s.port.counters.orphanImages ++
      bytesOf 2 s.port.counters.lateImages ++ bytesOf 2 s.port.counters.missingPlaceholders ++
      bytesOf 2 s.port.counters.saturatedCells →
    (2 ≤ field f.body 0 1 → exec .readCounters s = .next (s.answered f rest .malformed [])) ∧
    (field f.body 0 1 = 0 → exec .readCounters s = .next (s.answered f rest .ok (read ++ [0]))) ∧
    (field f.body 0 1 = 1 → exec .readCounters s = .next
      (({ s with port := { s.port with counters := ⟨0, 0, 0, 0, 0, 0, 0⟩ } } : State).answered f rest .ok (read ++ [1])))

/-- RESET: the transfer is aborted, a pending table activated and the pointer made 0, every pending fence answered ABORTED
before the RESET itself, and an exposure spoiled with its fiche put back, attempts unchanged; all else is kept. -/
def Obligations.SoftResetStopsWhatMoves : Prop :=
  ∀ (s base : State) (f : Frame) (rest : List Frame), Executes s .reset f rest →
    (s.gate.state = .idle ∨ s.gate.state = .spoil ∨ s.gate.state = .stopped → base = s) →
    (∀ c, s.gate.state = .advance c ∨ s.gate.state = .title c ∨ (∃ n, s.gate.state = .cells c n) ∨
        (∃ n list, s.gate.state = .index c n list) ∨ s.gate.state = .cut c →
      ∃ x, s.fiche c = some x ∧ base =
        { (s.setContext c (some { x with state := .queued, cellsDone := 0 })).setQueue x.lane (c :: s.queue x.lane) with
          port := { s.port with counters := { s.port.counters with
            spoiledSheets := min 65535 (s.port.counters.spoiledSheets + 1) } }
          gate := { s.gate with state := .spoil, step := some .spoilCut, standby := none } }) →
    exec .reset s = .next
      ((s.conclude { base with
          port := { base.port with
            fences := []
            outbound := s.port.outbound ++ s.port.fences.map fun (k : PendingFence) =>
              ⟨k.code, k.sequence, .aborted, [k.tag] ++ bytesOf 1 k.members.length ++
                bytesOf 1 (k.members.countP fun m => m.outcome != none)⟩ }
          intake := .ready []
          arbiter := { s.arbiter with
            active := if s.arbiter.pendingFlag then s.arbiter.pendingTable else s.arbiter.active
            pendingFlag := false, pointer := 0 } }).answered f rest .ok
        (bytesOf 1 s.port.fences.length ++ [if s.intake = .ready [] then 0 else 1] ++
          match s.gate.state.underExposure with
          | none => [0, 0]
          | some c => [1] ++ bytesOf 1 c.val))

/-- The fields of a body, most significant byte first. The framing checks, in their order, with the code and the body
length of each request, before any request's own checks; the request refused by one leaves the queue and changes nothing
else. Its body is empty, but a refused LAMP gives the lamp state; taking a frame as a LAMP by its code byte alone, and one
byte for the lamp state, are the model's reading (log entries 16 and 32). No request is executed while the reset line is
asserted. A row's command that is not the oldest request's changes nothing (the model's reading, log entry 1; the row of a
LAMP frame is log entry 2's choice). -/
def Obligations.FramingChecksComeFirst : Prop :=
  (∀ (body : List Byte) (offset width i : Nat), field body offset 0 = 0 ∧
    (∀ b, body[offset + width]? = some b → field body offset (width + 1) = 256 * field body offset width + b.toNat) ∧
    fieldKey body offset = BitVec.ofNat 48 (field body offset 6) ∧
    (i < width → (fieldText body offset width)[i]? = body[offset + i]?.map BitVec.toNat)) ∧
  (∀ (rows : List (Nat × RequestRow)), rows = [(0x10, .defineLane), (0x11, .mapClass), (0x20, .lookup), (0x21, .findNext),
      (0x22, .amend), (0x23, .withdraw), (0x24, .purge), (0x30, .place), (0x31, .openFiche), (0x32, .readFiche),
      (0x40, .close), (0x41, .fence), (0x42, .requeue), (0x43, .release), (0x50, .loadArbitration), (0x60, .loadCurve),
      (0x61, .setFilm), (0x62, .setStandby), (0x63, .lampOn), (0x70, .readStatus), (0x71, .readAttention),
      (0x72, .setAttentionMask), (0x73, .readCounters), (0x7F, .reset)] →
    (∀ e ∈ rows, rowOfCode (BitVec.ofNat 8 e.1) = e.2) ∧
    ∀ code : Byte, (∀ e ∈ rows, e.1 ≠ code.toNat) → rowOfCode code = .unknown) ∧
  (∀ e ∈ [(RequestRow.mapClass, 2), (.lookup, 6), (.findNext, 8), (.amend, 17), (.withdraw, 9), (.purge, 13), (.place, 9),
      (.readFiche, 5), (.close, 2), (.fence, 2), (.requeue, 4), (.release, 4), (.loadArbitration, 32), (.loadCurve, 35),
      (.setFilm, 2), (.setStandby, 1), (.lampOn, 1), (.readStatus, 0), (.readAttention, 3), (.setAttentionMask, 3),
      (.readCounters, 1), (.reset, 0)], ∀ body, expectedLength e.1 body = some e.2) ∧
  (∀ body : List Byte,
    (8 ≤ body.length → expectedLength .defineLane body = some (23 + field body 5 1 + field body 7 1)) ∧
    (body.length < 8 → expectedLength .defineLane body = none) ∧
    (body.length < 2 → expectedLength .openFiche body = none) ∧
    (2 ≤ body.length → field body 1 1 = 0 → expectedLength .openFiche body = some 3) ∧
    (2 ≤ body.length → field body 1 1 = 1 →
      expectedLength .openFiche body = if 3 ≤ body.length then some (5 + field body 2 1) else none) ∧
    (2 ≤ body.length → field body 1 1 = 2 →
      expectedLength .openFiche body = if 3 ≤ body.length ∧ 5 + field body 2 1 ≤ body.length then
        some (7 + field body 2 1 + field body (4 + field body 2 1) 1) else none) ∧
    (2 ≤ body.length → 3 ≤ field body 1 1 → expectedLength .openFiche body = some body.length)) ∧
  (∀ f : Frame, (f.bytes.length < 4 ∨ f.overLong = true → f.framingRefusal = some .malformed) ∧
    (4 ≤ f.bytes.length → f.overLong = false →
      (rowOfCode (f.byte 0) = .unknown → f.framingRefusal = some .unknown) ∧
      (rowOfCode (f.byte 0) ≠ .unknown →
        (f.bytes.length ≠ 4 + (256 * (f.byte 2).toNat + (f.byte 3).toNat) → f.framingRefusal = some .malformed) ∧
        (f.bytes.length = 4 + (256 * (f.byte 2).toNat + (f.byte 3).toNat) →
          (expectedLength (rowOfCode (f.byte 0)) f.body ≠ some f.body.length →
            f.framingRefusal = some .malformed) ∧
          (expectedLength (rowOfCode (f.byte 0)) f.body = some f.body.length → f.framingRefusal = none))))) ∧
  (∀ (s : State) (f : Frame) (rest : List Frame) (k : Completion), s.lines.resetLine = false →
    s.port.waiting = f :: rest → f.framingRefusal = some k →
    exec f.row.command s = .next (s.answered f rest k
      (if f.byte 0 = 0x63#8 then bytesOf 1 s.gate.lamp.code else []))) ∧
  (∀ f : Frame, (rowOfCode (f.byte 0) ≠ .lampOn → f.row = rowOfCode (f.byte 0)) ∧
    (rowOfCode (f.byte 0) = .lampOn → (f.framingRefusal ≠ none → f.row = .lampOn) ∧
      (f.framingRefusal = none → f.row =
        if field f.body 0 1 = 1 then .lampOff else if field f.body 0 1 = 2 then .lampClear else .lampOn))) ∧
  ∀ (s : State) (row : RequestRow),
    s.lines.resetLine = true ∨ (∀ f rest, s.port.waiting = f :: rest → f.row ≠ row) → exec row.command s = .next s

/-- A frame of a code that names no request is answered UNKNOWN by UNKNOWN_REQUEST. FRAME_ARRIVAL takes the frame when
fewer than 16 requests are outstanding, and otherwise answers QUEUE_FULL or counts it as dropped; SEND_COMPLETION takes
the oldest reply from the list, and changes nothing while there is none (the model's reading, log entry 4). That a
FRAME_ARRIVAL which ends a frame-select standing from the reset takes nothing is the model's reading (log entry 7). No
byte is taken and none is sent while the reset line is asserted. The first clause gives the bytes of a reply frame and the
completion codes. -/
def Obligations.FramesArriveAndRepliesLeave : Prop :=
  ((∀ r : Reply, r.bytes = [r.code, r.sequence, r.completion.code] ++ bytesOf 2 r.body.length ++ r.body) ∧
    [Completion.ok, .queueFull, .malformed, .unknown, .noLane, .duplicate, .notFound, .condition, .frozen, .noRoom,
      .noContext, .directoryFull, .tooLarge, .splitFixed, .busy, .state, .nothingOpen, .aborted].map Completion.code =
      (List.range 18).map (BitVec.ofNat 8)) ∧
  (∀ (s : State) (f : Frame) (rest : List Frame), s.lines.resetLine = false → s.port.waiting = f :: rest →
    4 ≤ f.bytes.length → f.overLong = false →
    (f.byte 0).toNat ∉ [0x10, 0x11, 0x20, 0x21, 0x22, 0x23, 0x24, 0x30, 0x31, 0x32, 0x40, 0x41, 0x42, 0x43, 0x50, 0x60,
      0x61, 0x62, 0x63, 0x70, 0x71, 0x72, 0x73, 0x7F] →
    exec .unknownRequest s = .next (s.answered f rest .unknown [])) ∧
  (∀ s : State, (∀ strobed, s.lines.resetLine = true → exec (.frameArrival strobed) s = .next s) ∧
    (s.lines.resetLine = false → s.lines.staleSelect = false → exec (.frameArrival []) s = .next s) ∧
    ∀ strobed, s.lines.resetLine = false → s.lines.staleSelect = true →
      exec (.frameArrival strobed) s = .next { s with lines := { s.lines with staleSelect := false } }) ∧
  (∀ (s : State) (strobed : List Byte), s.lines.resetLine = false → s.lines.staleSelect = false → strobed ≠ [] →
    (s.outstanding < 16 → exec (.frameArrival strobed) s = .next { s with
      port := { s.port with
        waiting := s.port.waiting ++ [⟨strobed.take 132, decide (132 < strobed.length)⟩] } }) ∧
    (16 ≤ s.outstanding → queueFullReplies s < 8 → exec (.frameArrival strobed) s = .next { s with
      port := { s.port with
        outbound := s.port.outbound ++
          [⟨strobed.getD 0 0, strobed.getD 1 0, .queueFull, bytesOf 1 s.port.dropped⟩]
        dropped := 0 } }) ∧
    (16 ≤ s.outstanding → 8 ≤ queueFullReplies s → exec (.frameArrival strobed) s = .next { s with
      port := { s.port with dropped := min 255 (s.port.dropped + 1) } })) ∧
  (∀ s : State, s.outstanding = s.port.waiting.length +
      s.port.outbound.countP (fun r => r.completion ≠ .queueFull) + s.port.fences.length ∧
    queueFullReplies s = s.port.outbound.countP fun r => r.completion = .queueFull) ∧
  ∀ s : State, (s.lines.resetLine = true → exec .sendCompletion s = .next s) ∧
    (s.lines.resetLine = false →
      exec .sendCompletion s = .next { s with port := { s.port with outbound := s.port.outbound.drop 1 } })

/-! ## Invariants -/

/-- Every step keeps Page Memory's stores in canonical form: addresses rising, no entry equal to what an unlisted one
reads as. The form is the model's (log entry 9). -/
def Obligations.StepKeepsMemoryCanonical : Prop :=
  (∀ m : Memory, m.wf = true ↔
    (m.spots.Pairwise (fun a b => a.1 < b.1) ∧ ∀ e ∈ m.spots, e.2 ≠ 255#8) ∧
    (m.upsets.Pairwise (fun a b => a.1 < b.1) ∧ ∀ e ∈ m.upsets, e.2 ≠ 0#72) ∧
    m.extents.Pairwise (fun a b => a.1 < b.1) ∧ ∀ e ∈ m.extents, e.2 ≠ none) ∧
  ∀ s t : State, s.memory.wf = true → step s = .next t → t.memory.wf = true

/-- Every step keeps class 0 on lane 0, next serials and serials below 1000000, bits 22 and 23 of the flags and the mask
clear, the counters at most 65535 and the film count at most 4095; and the link's limits: 16 outstanding requests, 4
pending fences, 8 QUEUE_FULL replies, a dropped count of 255. -/
def Obligations.StepKeepsRangesAndLimits : Prop :=
  (∀ s t : State, s.FieldsInRange → step s = .next t → t.FieldsInRange) ∧
  ∀ s t : State, s.LinkInBounds → step s = .next t → t.LinkInBounds

/-- Every step keeps the directory in strictly ascending key order and at most 1024 records long; and then the index entries
used of every context equal to the parts on it, within the capacity of a fiche with index cells. -/
def Obligations.StepKeepsDirectoryOrdered : Prop :=
  (∀ s t : State, s.DirectoryOrdered → step s = .next t → t.DirectoryOrdered) ∧
  ∀ s t : State, s.DirectoryOrdered → s.IndexEntriesAgree → step s = .next t → t.IndexEntriesAgree

/-- Every step keeps each buffer held at most once, by one cell or by Image Intake; and then the free pool, Image Intake and
the cells together hold 4096 buffers. -/
def Obligations.StepKeepsBuffersHeldOnce : Prop :=
  (∀ s t : State, s.BuffersHeldOnce → step s = .next t → t.BuffersHeldOnce) ∧
  ∀ s : State, s.BuffersHeldOnce →
    s.freePool.length + s.intake.buffers.length +
      ((List.finRange 8).map fun c => match s.fiche c with
        | some x => x.buffers.length
        | none => 0).sum = 4096

/-- Every step keeps each lane's queue as the contexts of the lane that are QUEUED, each once, the context under exposure as
the one that is EXPOSING, and attempts at 3 on a FAILED context and below 3 on any other; and every step keeps a lane to at
most one COMPOSING context. -/
def Obligations.StepKeepsQueuesAndGateAgreeing : Prop :=
  (∀ s t : State, s.QueuesAndGateAgree → step s = .next t → t.QueuesAndGateAgree) ∧
  ∀ s t : State, s.ComposesOnce → step s = .next t → t.ComposesOnce

/-- The invariants hold after power-on. -/
def Obligations.InvariantsHoldAtReset : Prop :=
  State.reset.memory.wf = true ∧ State.reset.FieldsInRange ∧ State.reset.LinkInBounds ∧
  State.reset.DirectoryOrdered ∧ State.reset.IndexEntriesAgree ∧ State.reset.BuffersHeldOnce ∧
  State.reset.QueuesAndGateAgree ∧ State.reset.ComposesOnce
end

