-- ==== Sys2Proof/Laws/Memory.lean ====
section
/-! SUPPORT. Page Memory: its stores read back what was written, and every operation keeps their canonical form. -/
namespace Sys2Proof.Machine

variable {α : Type} [DecidableEq α] {d : α} {m : List (Nat × α)} {a b : Nat} {v : α}

theorem sparseWf_iff : sparseWf d m = true ↔ (∀ e ∈ m, e.2 ≠ d) ∧ m.Pairwise (fun x y => x.1 < y.1) := by
  induction m with
  | nil => simp [sparseWf]
  | cons e m ih =>
    obtain ⟨k, w⟩ := e
    simp only [sparseWf, Bool.and_eq_true, decide_eq_true_eq, List.all_eq_true, ih, List.mem_cons, List.pairwise_cons,
      forall_eq_or_imp]
    tauto

theorem sparseWf_filter (p : Nat × α → Bool) (h : sparseWf d m = true) : sparseWf d (m.filter p) = true := by
  rw [sparseWf_iff] at h ⊢
  exact ⟨fun e he => h.1 e (List.mem_of_mem_filter he), h.2.filter p⟩

/-- Every entry of a store after a write is an old one or the one written. -/
theorem mem_sparsePut {e : Nat × α} (h : e ∈ sparsePut d m a v) : e ∈ m ∨ (e = (a, v) ∧ v ≠ d) := by
  induction m with
  | nil => simp only [sparsePut] at h; split at h <;> simp_all
  | cons x m ih =>
    obtain ⟨k, w⟩ := x
    simp only [sparsePut] at h
    split at h
    · split at h <;> simp_all; tauto
    · split at h
      · split at h <;> simp_all; tauto
      · rcases List.mem_cons.1 h with h | h
        · exact .inl (by simp [h])
        · rcases ih h with h | h
          · exact .inl (by simp [h])
          · exact .inr h

theorem sparsePut_wf (h : sparseWf d m = true) : sparseWf d (sparsePut d m a v) = true := by
  induction m with
  | nil => simp only [sparsePut]; split <;> simp_all [sparseWf]
  | cons e m ih =>
    obtain ⟨k, w⟩ := e
    rw [sparseWf_iff, List.pairwise_cons] at h
    have hm : sparseWf d m = true := sparseWf_iff.2 ⟨fun e he => h.1 e (by simp [he]), h.2.2⟩
    simp only [sparsePut]
    split
    · split
      · exact sparseWf_iff.2 ⟨h.1, List.pairwise_cons.2 h.2⟩
      · rename_i ha hv
        refine sparseWf_iff.2 ⟨?_, List.pairwise_cons.2 ⟨?_, List.pairwise_cons.2 h.2⟩⟩
        · intro e he
          rcases List.mem_cons.1 he with rfl | he
          · exact hv
          · exact h.1 e he
        · intro e he
          rcases List.mem_cons.1 he with rfl | he
          · exact ha
          · exact lt_trans ha (h.2.1 e he)
    · rename_i hlt
      split
      · rename_i hk
        split
        · exact hm
        · rename_i hv
          refine sparseWf_iff.2 ⟨?_, List.pairwise_cons.2 ⟨?_, h.2.2⟩⟩
          · intro e he
            rcases List.mem_cons.1 he with rfl | he
            · exact hv
            · exact h.1 e (by simp [he])
          · intro e he
            simpa [hk] using h.2.1 e he
      · rename_i hk
        have hp := sparseWf_iff.1 (ih hm)
        refine sparseWf_iff.2 ⟨?_, List.pairwise_cons.2 ⟨?_, hp.2⟩⟩
        · intro e he
          rcases List.mem_cons.1 he with rfl | he
          · exact h.1 _ (by simp)
          · exact hp.1 e he
        · intro e he
          rcases mem_sparsePut he with he | ⟨rfl, _⟩
          · exact h.2.1 e he
          · simp only; omega

omit [DecidableEq α] in
theorem sparseGet_of_forall_lt (h : ∀ e ∈ m, a < e.1) : sparseGet d m a = d := by
  induction m with
  | nil => rfl
  | cons e m ih =>
    obtain ⟨k, w⟩ := e
    have hk : a < k := h (k, w) (by simp)
    simp only [sparseGet]
    rw [if_neg (by omega)]
    exact ih fun e he => h e (by simp [he])

/-- Read after write. -/
theorem sparseGet_sparsePut (h : sparseWf d m = true) :
    sparseGet d (sparsePut d m a v) b = if b = a then v else sparseGet d m b := by
  induction m with
  | nil =>
    simp only [sparsePut]
    split <;> simp_all [sparseGet]
  | cons e m ih =>
    obtain ⟨k, w⟩ := e
    have h' := sparseWf_iff.1 h
    rw [List.pairwise_cons] at h'
    have hm : sparseWf d m = true := sparseWf_iff.2 ⟨fun e he => h'.1 e (by simp [he]), h'.2.2⟩
    simp only [sparsePut]
    split
    · rename_i ha
      split
      · rename_i hv
        by_cases hb : b = a
        · rw [if_pos hb]
          subst hb hv
          exact sparseGet_of_forall_lt fun e he => by
            rcases List.mem_cons.1 he with rfl | he
            · exact ha
            · exact lt_trans ha (h'.2.1 e he)
        · rw [if_neg hb]
      · simp only [sparseGet]
    · rename_i hlt
      split
      · rename_i hk
        split
        · rename_i hv
          by_cases hb : b = a
          · rw [if_pos hb, hb, hv, hk]
            exact sparseGet_of_forall_lt h'.2.1
          · simp only [sparseGet]
            rw [if_neg hb, if_neg (by omega)]
        · subst hk
          simp only [sparseGet]
          split <;> rfl
      · rename_i hk
        simp only [sparseGet, ih hm]
        by_cases hb : b = k
        · rw [if_pos hb, if_pos hb, if_neg (by omega)]
        · rw [if_neg hb, if_neg hb]

/-- Read after entries are dropped by their address. -/
theorem sparseGet_filter (p : Nat → Bool) (h : sparseWf d m = true) :
    sparseGet d (m.filter fun e => p e.1) a = if p a = true then sparseGet d m a else d := by
  induction m with
  | nil => simp [sparseGet]
  | cons e m ih =>
    obtain ⟨k, w⟩ := e
    have h' := sparseWf_iff.1 h
    rw [List.pairwise_cons] at h'
    have hm : sparseWf d m = true := sparseWf_iff.2 ⟨fun e he => h'.1 e (by simp [he]), h'.2.2⟩
    rw [List.filter_cons]
    by_cases hk : p k = true <;> by_cases hb : a = k
    · rw [if_pos hk]
      subst hb
      simp [sparseGet, hk]
    · rw [if_pos hk]
      simp only [sparseGet, if_neg hb]
      exact ih hm
    · rw [if_neg hk, ih hm]
      subst hb
      simp [hk]
    · rw [if_neg hk, ih hm]
      simp [sparseGet, hb]

/-! ## Every operation of Page Memory keeps the form -/

theorem Memory.wf_iff {m : Memory} : m.wf = true ↔
    sparseWf blankSpot m.spots = true ∧ sparseWf 0#72 m.upsets = true ∧
      sparseWf (none : Option Format) m.extents = true := by
  simp [Memory.wf, and_assoc]

theorem writeRun_wf (vs : List Byte) : ∀ (spots : List Host.Cell) (a : Nat), sparseWf blankSpot spots = true →
    sparseWf blankSpot (writeRun spots a vs) = true := by
  induction vs with
  | nil => intro spots a h; exact h
  | cons v vs ih => intro spots a h; exact ih _ _ (sparsePut_wf h)

theorem Memory.setExtent_wf {m : Memory} (n : Nat) (e : Option Format) (h : m.wf = true) : (m.setExtent n e).wf = true := by
  rw [Memory.wf_iff] at h ⊢
  exact ⟨h.1, h.2.1, sparsePut_wf h.2.2⟩

theorem Memory.writeRow_wf {m : Memory} (f : Format) (n y : Nat) (vs : List Byte) (h : m.wf = true) :
    (m.writeRow f n y vs).wf = true := by
  rw [Memory.wf_iff] at h ⊢
  exact ⟨writeRun_wf vs _ _ h.1, sparseWf_filter _ h.2.1, sparsePut_wf h.2.2⟩

theorem Memory.writeMargins_wf {m : Memory} (f : Format) (n : Nat) (margin : Nat → Bool) (h : m.wf = true) :
    (m.writeMargins f n margin).wf = true := by
  rw [Memory.wf_iff] at h ⊢
  exact ⟨sparseWf_filter _ h.1, sparseWf_filter _ h.2.1, h.2.2⟩

theorem Memory.writeBack_wf {m : Memory} (f : Format) (n : Nat) (h : m.wf = true) : (m.writeBack f n).wf = true := by
  rw [Memory.wf_iff] at h ⊢
  exact ⟨h.1, sparseWf_filter _ h.2.1, h.2.2⟩

theorem Memory.upset_wf {m : Memory} (g bit : Nat) (h : m.wf = true) : (m.upset g bit).wf = true := by
  rw [Memory.wf_iff] at h ⊢
  exact ⟨h.1, sparsePut_wf h.2.1, h.2.2⟩

theorem Memory.wf_withoutExtents {m : Memory} (h : m.wf = true) : ({ m with extents := [] } : Memory).wf = true := by
  rw [Memory.wf_iff] at h ⊢
  exact ⟨h.1, h.2.1, rfl⟩

/-- Nothing listed, as after power-on. -/
theorem Memory.reset_wf : State.reset.memory.wf = true := rfl

theorem foldl_wf {β : Type} (g : Memory → β → Memory) (hg : ∀ m x, m.wf = true → (g m x).wf = true) (xs : List β) :
    ∀ m : Memory, m.wf = true → (xs.foldl g m).wf = true := by
  induction xs with
  | nil => intro m h; exact h
  | cons x xs ih => intro m h; exact ih _ (hg m x h)

/-! ## Reading what was written -/

theorem sparseGet_writeRun (vs : List Byte) : ∀ (spots : List Host.Cell) (a b : Nat), sparseWf blankSpot spots = true →
    sparseGet blankSpot (writeRun spots a vs) b =
      if h : a ≤ b ∧ b < a + vs.length then vs[b - a] else sparseGet blankSpot spots b := by
  induction vs with
  | nil =>
    intro spots a b _
    rw [dif_neg (by simp)]
    rfl
  | cons v vs ih =>
    intro spots a b h
    simp only [writeRun, ih _ _ _ (sparsePut_wf h), sparseGet_sparsePut h, List.length_cons]
    by_cases hb : b = a
    · subst hb
      rw [dif_neg (by omega), dif_pos (by omega)]
      simp
    · by_cases hr : a + 1 ≤ b ∧ b < a + 1 + vs.length
      · rw [dif_pos hr, dif_pos (by omega)]
        have : b - a = (b - (a + 1)) + 1 := by omega
        simp [this]
      · rw [dif_neg hr, dif_neg (by omega), if_neg hb]

end Sys2Proof.Machine
end

