-- ==== Sys2Proof/Laws/State.lean ====
section
/-! SUPPORT. What each update of State leaves and changes, field by field: every lemma is true by unfolding. -/
namespace Sys2Proof.Machine

/-! ## setContext -/

@[simp] theorem State.setContext_pending (s : State) (c : CtxId) (x : Option Fiche) :
    (s.setContext c x).pending = s.pending := rfl
@[simp] theorem State.setContext_lines (s : State) (c : CtxId) (x : Option Fiche) :
    (s.setContext c x).lines = s.lines := rfl
@[simp] theorem State.setContext_laneTable (s : State) (c : CtxId) (x : Option Fiche) :
    (s.setContext c x).laneTable = s.laneTable := rfl
@[simp] theorem State.setContext_directory (s : State) (c : CtxId) (x : Option Fiche) :
    (s.setContext c x).directory = s.directory := rfl
@[simp] theorem State.setContext_intake (s : State) (c : CtxId) (x : Option Fiche) :
    (s.setContext c x).intake = s.intake := rfl
@[simp] theorem State.setContext_memory (s : State) (c : CtxId) (x : Option Fiche) :
    (s.setContext c x).memory = s.memory := rfl
@[simp] theorem State.setContext_arbiter (s : State) (c : CtxId) (x : Option Fiche) :
    (s.setContext c x).arbiter = s.arbiter := rfl
@[simp] theorem State.setContext_gate (s : State) (c : CtxId) (x : Option Fiche) :
    (s.setContext c x).gate = s.gate := rfl
@[simp] theorem State.setContext_port (s : State) (c : CtxId) (x : Option Fiche) :
    (s.setContext c x).port = s.port := rfl
@[simp] theorem State.setContext_free (s : State) (c : CtxId) (x : Option Fiche) :
    (s.setContext c x).free = s.free := rfl
/-! ## modifyFiche -/

@[simp] theorem State.modifyFiche_pending (s : State) (c : CtxId) (g : Fiche → Fiche) :
    (s.modifyFiche c g).pending = s.pending := rfl
@[simp] theorem State.modifyFiche_lines (s : State) (c : CtxId) (g : Fiche → Fiche) :
    (s.modifyFiche c g).lines = s.lines := rfl
@[simp] theorem State.modifyFiche_laneTable (s : State) (c : CtxId) (g : Fiche → Fiche) :
    (s.modifyFiche c g).laneTable = s.laneTable := rfl
@[simp] theorem State.modifyFiche_directory (s : State) (c : CtxId) (g : Fiche → Fiche) :
    (s.modifyFiche c g).directory = s.directory := rfl
@[simp] theorem State.modifyFiche_intake (s : State) (c : CtxId) (g : Fiche → Fiche) :
    (s.modifyFiche c g).intake = s.intake := rfl
@[simp] theorem State.modifyFiche_memory (s : State) (c : CtxId) (g : Fiche → Fiche) :
    (s.modifyFiche c g).memory = s.memory := rfl
@[simp] theorem State.modifyFiche_arbiter (s : State) (c : CtxId) (g : Fiche → Fiche) :
    (s.modifyFiche c g).arbiter = s.arbiter := rfl
@[simp] theorem State.modifyFiche_gate (s : State) (c : CtxId) (g : Fiche → Fiche) :
    (s.modifyFiche c g).gate = s.gate := rfl
@[simp] theorem State.modifyFiche_port (s : State) (c : CtxId) (g : Fiche → Fiche) :
    (s.modifyFiche c g).port = s.port := rfl
@[simp] theorem State.modifyFiche_free (s : State) (c : CtxId) (g : Fiche → Fiche) :
    (s.modifyFiche c g).free = s.free := rfl
/-! ## setQueue -/

@[simp] theorem State.setQueue_pending (s : State) (l : LaneId) (q : List CtxId) :
    (s.setQueue l q).pending = s.pending := rfl
@[simp] theorem State.setQueue_lines (s : State) (l : LaneId) (q : List CtxId) :
    (s.setQueue l q).lines = s.lines := rfl
@[simp] theorem State.setQueue_laneTable (s : State) (l : LaneId) (q : List CtxId) :
    (s.setQueue l q).laneTable = s.laneTable := rfl
@[simp] theorem State.setQueue_directory (s : State) (l : LaneId) (q : List CtxId) :
    (s.setQueue l q).directory = s.directory := rfl
@[simp] theorem State.setQueue_intake (s : State) (l : LaneId) (q : List CtxId) :
    (s.setQueue l q).intake = s.intake := rfl
@[simp] theorem State.setQueue_memory (s : State) (l : LaneId) (q : List CtxId) :
    (s.setQueue l q).memory = s.memory := rfl
@[simp] theorem State.setQueue_arbiter (s : State) (l : LaneId) (q : List CtxId) :
    (s.setQueue l q).arbiter = s.arbiter := rfl
@[simp] theorem State.setQueue_gate (s : State) (l : LaneId) (q : List CtxId) : (s.setQueue l q).gate = s.gate := rfl
@[simp] theorem State.setQueue_port (s : State) (l : LaneId) (q : List CtxId) : (s.setQueue l q).port = s.port := rfl
@[simp] theorem State.setQueue_free (s : State) (l : LaneId) (q : List CtxId) : (s.setQueue l q).free = s.free := rfl
/-! ## setLane -/

@[simp] theorem State.setLane_pending (s : State) (l : LaneId) (x : Lane) : (s.setLane l x).pending = s.pending := rfl
@[simp] theorem State.setLane_lines (s : State) (l : LaneId) (x : Lane) : (s.setLane l x).lines = s.lines := rfl
@[simp] theorem State.setLane_directory (s : State) (l : LaneId) (x : Lane) :
    (s.setLane l x).directory = s.directory := rfl
@[simp] theorem State.setLane_composer (s : State) (l : LaneId) (x : Lane) :
    (s.setLane l x).composer = s.composer := rfl
@[simp] theorem State.setLane_intake (s : State) (l : LaneId) (x : Lane) : (s.setLane l x).intake = s.intake := rfl
@[simp] theorem State.setLane_memory (s : State) (l : LaneId) (x : Lane) : (s.setLane l x).memory = s.memory := rfl
@[simp] theorem State.setLane_arbiter (s : State) (l : LaneId) (x : Lane) : (s.setLane l x).arbiter = s.arbiter := rfl
@[simp] theorem State.setLane_gate (s : State) (l : LaneId) (x : Lane) : (s.setLane l x).gate = s.gate := rfl
@[simp] theorem State.setLane_port (s : State) (l : LaneId) (x : Lane) : (s.setLane l x).port = s.port := rfl
@[simp] theorem State.setLane_free (s : State) (l : LaneId) (x : Lane) : (s.setLane l x).free = s.free := rfl
/-! ## setNextSerial -/

@[simp] theorem State.setNextSerial_pending (s : State) (l : LaneId) (n : Nat) :
    (s.setNextSerial l n).pending = s.pending := rfl
@[simp] theorem State.setNextSerial_lines (s : State) (l : LaneId) (n : Nat) :
    (s.setNextSerial l n).lines = s.lines := rfl
@[simp] theorem State.setNextSerial_directory (s : State) (l : LaneId) (n : Nat) :
    (s.setNextSerial l n).directory = s.directory := rfl
@[simp] theorem State.setNextSerial_composer (s : State) (l : LaneId) (n : Nat) :
    (s.setNextSerial l n).composer = s.composer := rfl
@[simp] theorem State.setNextSerial_intake (s : State) (l : LaneId) (n : Nat) :
    (s.setNextSerial l n).intake = s.intake := rfl
@[simp] theorem State.setNextSerial_memory (s : State) (l : LaneId) (n : Nat) :
    (s.setNextSerial l n).memory = s.memory := rfl
@[simp] theorem State.setNextSerial_arbiter (s : State) (l : LaneId) (n : Nat) :
    (s.setNextSerial l n).arbiter = s.arbiter := rfl
@[simp] theorem State.setNextSerial_gate (s : State) (l : LaneId) (n : Nat) :
    (s.setNextSerial l n).gate = s.gate := rfl
@[simp] theorem State.setNextSerial_port (s : State) (l : LaneId) (n : Nat) :
    (s.setNextSerial l n).port = s.port := rfl
@[simp] theorem State.setNextSerial_free (s : State) (l : LaneId) (n : Nat) :
    (s.setNextSerial l n).free = s.free := rfl
/-! ## setFlag -/

@[simp] theorem State.setFlag_pending (s : State) (b : Nat) : (s.setFlag b).pending = s.pending := rfl
@[simp] theorem State.setFlag_lines (s : State) (b : Nat) : (s.setFlag b).lines = s.lines := rfl
@[simp] theorem State.setFlag_laneTable (s : State) (b : Nat) : (s.setFlag b).laneTable = s.laneTable := rfl
@[simp] theorem State.setFlag_directory (s : State) (b : Nat) : (s.setFlag b).directory = s.directory := rfl
@[simp] theorem State.setFlag_composer (s : State) (b : Nat) : (s.setFlag b).composer = s.composer := rfl
@[simp] theorem State.setFlag_intake (s : State) (b : Nat) : (s.setFlag b).intake = s.intake := rfl
@[simp] theorem State.setFlag_memory (s : State) (b : Nat) : (s.setFlag b).memory = s.memory := rfl
@[simp] theorem State.setFlag_arbiter (s : State) (b : Nat) : (s.setFlag b).arbiter = s.arbiter := rfl
@[simp] theorem State.setFlag_gate (s : State) (b : Nat) : (s.setFlag b).gate = s.gate := rfl
@[simp] theorem State.setFlag_free (s : State) (b : Nat) : (s.setFlag b).free = s.free := rfl
/-! ## setLaneFlag -/

@[simp] theorem State.setLaneFlag_pending (s : State) (l : LaneId) (k : LaneFlag) :
    (s.setLaneFlag l k).pending = s.pending := rfl
@[simp] theorem State.setLaneFlag_lines (s : State) (l : LaneId) (k : LaneFlag) :
    (s.setLaneFlag l k).lines = s.lines := rfl
@[simp] theorem State.setLaneFlag_laneTable (s : State) (l : LaneId) (k : LaneFlag) :
    (s.setLaneFlag l k).laneTable = s.laneTable := rfl
@[simp] theorem State.setLaneFlag_directory (s : State) (l : LaneId) (k : LaneFlag) :
    (s.setLaneFlag l k).directory = s.directory := rfl
@[simp] theorem State.setLaneFlag_composer (s : State) (l : LaneId) (k : LaneFlag) :
    (s.setLaneFlag l k).composer = s.composer := rfl
@[simp] theorem State.setLaneFlag_intake (s : State) (l : LaneId) (k : LaneFlag) :
    (s.setLaneFlag l k).intake = s.intake := rfl
@[simp] theorem State.setLaneFlag_memory (s : State) (l : LaneId) (k : LaneFlag) :
    (s.setLaneFlag l k).memory = s.memory := rfl
@[simp] theorem State.setLaneFlag_arbiter (s : State) (l : LaneId) (k : LaneFlag) :
    (s.setLaneFlag l k).arbiter = s.arbiter := rfl
@[simp] theorem State.setLaneFlag_gate (s : State) (l : LaneId) (k : LaneFlag) :
    (s.setLaneFlag l k).gate = s.gate := rfl
@[simp] theorem State.setLaneFlag_free (s : State) (l : LaneId) (k : LaneFlag) :
    (s.setLaneFlag l k).free = s.free := rfl
/-! ## withCounters -/

@[simp] theorem State.withCounters_pending (s : State) (g : Counters → Counters) :
    (s.withCounters g).pending = s.pending := rfl
@[simp] theorem State.withCounters_lines (s : State) (g : Counters → Counters) :
    (s.withCounters g).lines = s.lines := rfl
@[simp] theorem State.withCounters_laneTable (s : State) (g : Counters → Counters) :
    (s.withCounters g).laneTable = s.laneTable := rfl
@[simp] theorem State.withCounters_directory (s : State) (g : Counters → Counters) :
    (s.withCounters g).directory = s.directory := rfl
@[simp] theorem State.withCounters_composer (s : State) (g : Counters → Counters) :
    (s.withCounters g).composer = s.composer := rfl
@[simp] theorem State.withCounters_intake (s : State) (g : Counters → Counters) :
    (s.withCounters g).intake = s.intake := rfl
@[simp] theorem State.withCounters_memory (s : State) (g : Counters → Counters) :
    (s.withCounters g).memory = s.memory := rfl
@[simp] theorem State.withCounters_arbiter (s : State) (g : Counters → Counters) :
    (s.withCounters g).arbiter = s.arbiter := rfl
@[simp] theorem State.withCounters_gate (s : State) (g : Counters → Counters) :
    (s.withCounters g).gate = s.gate := rfl
@[simp] theorem State.withCounters_free (s : State) (g : Counters → Counters) :
    (s.withCounters g).free = s.free := rfl
/-! ## countSpoiled -/

@[simp] theorem State.countSpoiled_pending (s : State) : (s.countSpoiled).pending = s.pending := rfl
@[simp] theorem State.countSpoiled_lines (s : State) : (s.countSpoiled).lines = s.lines := rfl
@[simp] theorem State.countSpoiled_laneTable (s : State) : (s.countSpoiled).laneTable = s.laneTable := rfl
@[simp] theorem State.countSpoiled_directory (s : State) : (s.countSpoiled).directory = s.directory := rfl
@[simp] theorem State.countSpoiled_composer (s : State) : (s.countSpoiled).composer = s.composer := rfl
@[simp] theorem State.countSpoiled_intake (s : State) : (s.countSpoiled).intake = s.intake := rfl
@[simp] theorem State.countSpoiled_memory (s : State) : (s.countSpoiled).memory = s.memory := rfl
@[simp] theorem State.countSpoiled_arbiter (s : State) : (s.countSpoiled).arbiter = s.arbiter := rfl
@[simp] theorem State.countSpoiled_gate (s : State) : (s.countSpoiled).gate = s.gate := rfl
@[simp] theorem State.countSpoiled_free (s : State) : (s.countSpoiled).free = s.free := rfl
/-! ## post -/

@[simp] theorem State.post_pending (s : State) (r : Reply) : (s.post r).pending = s.pending := rfl
@[simp] theorem State.post_lines (s : State) (r : Reply) : (s.post r).lines = s.lines := rfl
@[simp] theorem State.post_laneTable (s : State) (r : Reply) : (s.post r).laneTable = s.laneTable := rfl
@[simp] theorem State.post_directory (s : State) (r : Reply) : (s.post r).directory = s.directory := rfl
@[simp] theorem State.post_composer (s : State) (r : Reply) : (s.post r).composer = s.composer := rfl
@[simp] theorem State.post_intake (s : State) (r : Reply) : (s.post r).intake = s.intake := rfl
@[simp] theorem State.post_memory (s : State) (r : Reply) : (s.post r).memory = s.memory := rfl
@[simp] theorem State.post_arbiter (s : State) (r : Reply) : (s.post r).arbiter = s.arbiter := rfl
@[simp] theorem State.post_gate (s : State) (r : Reply) : (s.post r).gate = s.gate := rfl
@[simp] theorem State.post_free (s : State) (r : Reply) : (s.post r).free = s.free := rfl
/-! ## settleFences -/

@[simp] theorem State.settleFences_pending (s : State) (c : CtxId) (o : FenceOutcome) :
    (s.settleFences c o).pending = s.pending := rfl
@[simp] theorem State.settleFences_lines (s : State) (c : CtxId) (o : FenceOutcome) :
    (s.settleFences c o).lines = s.lines := rfl
@[simp] theorem State.settleFences_laneTable (s : State) (c : CtxId) (o : FenceOutcome) :
    (s.settleFences c o).laneTable = s.laneTable := rfl
@[simp] theorem State.settleFences_directory (s : State) (c : CtxId) (o : FenceOutcome) :
    (s.settleFences c o).directory = s.directory := rfl
@[simp] theorem State.settleFences_composer (s : State) (c : CtxId) (o : FenceOutcome) :
    (s.settleFences c o).composer = s.composer := rfl
@[simp] theorem State.settleFences_intake (s : State) (c : CtxId) (o : FenceOutcome) :
    (s.settleFences c o).intake = s.intake := rfl
@[simp] theorem State.settleFences_memory (s : State) (c : CtxId) (o : FenceOutcome) :
    (s.settleFences c o).memory = s.memory := rfl
@[simp] theorem State.settleFences_arbiter (s : State) (c : CtxId) (o : FenceOutcome) :
    (s.settleFences c o).arbiter = s.arbiter := rfl
@[simp] theorem State.settleFences_gate (s : State) (c : CtxId) (o : FenceOutcome) :
    (s.settleFences c o).gate = s.gate := rfl
@[simp] theorem State.settleFences_free (s : State) (c : CtxId) (o : FenceOutcome) :
    (s.settleFences c o).free = s.free := rfl
/-! ## removeRecord -/

@[simp] theorem State.removeRecord_pending (s : State) (k : Key) : (s.removeRecord k).pending = s.pending := rfl
@[simp] theorem State.removeRecord_lines (s : State) (k : Key) : (s.removeRecord k).lines = s.lines := rfl
@[simp] theorem State.removeRecord_laneTable (s : State) (k : Key) : (s.removeRecord k).laneTable = s.laneTable := rfl
@[simp] theorem State.removeRecord_composer (s : State) (k : Key) : (s.removeRecord k).composer = s.composer := rfl
@[simp] theorem State.removeRecord_intake (s : State) (k : Key) : (s.removeRecord k).intake = s.intake := rfl
@[simp] theorem State.removeRecord_memory (s : State) (k : Key) : (s.removeRecord k).memory = s.memory := rfl
@[simp] theorem State.removeRecord_arbiter (s : State) (k : Key) : (s.removeRecord k).arbiter = s.arbiter := rfl
@[simp] theorem State.removeRecord_gate (s : State) (k : Key) : (s.removeRecord k).gate = s.gate := rfl
@[simp] theorem State.removeRecord_port (s : State) (k : Key) : (s.removeRecord k).port = s.port := rfl
@[simp] theorem State.removeRecord_free (s : State) (k : Key) : (s.removeRecord k).free = s.free := rfl
/-! ## updateRecord -/

@[simp] theorem State.updateRecord_pending (s : State) (k : Key) (g : Record → Record) :
    (s.updateRecord k g).pending = s.pending := rfl
@[simp] theorem State.updateRecord_lines (s : State) (k : Key) (g : Record → Record) :
    (s.updateRecord k g).lines = s.lines := rfl
@[simp] theorem State.updateRecord_laneTable (s : State) (k : Key) (g : Record → Record) :
    (s.updateRecord k g).laneTable = s.laneTable := rfl
@[simp] theorem State.updateRecord_composer (s : State) (k : Key) (g : Record → Record) :
    (s.updateRecord k g).composer = s.composer := rfl
@[simp] theorem State.updateRecord_intake (s : State) (k : Key) (g : Record → Record) :
    (s.updateRecord k g).intake = s.intake := rfl
@[simp] theorem State.updateRecord_memory (s : State) (k : Key) (g : Record → Record) :
    (s.updateRecord k g).memory = s.memory := rfl
@[simp] theorem State.updateRecord_arbiter (s : State) (k : Key) (g : Record → Record) :
    (s.updateRecord k g).arbiter = s.arbiter := rfl
@[simp] theorem State.updateRecord_gate (s : State) (k : Key) (g : Record → Record) :
    (s.updateRecord k g).gate = s.gate := rfl
@[simp] theorem State.updateRecord_port (s : State) (k : Key) (g : Record → Record) :
    (s.updateRecord k g).port = s.port := rfl
@[simp] theorem State.updateRecord_free (s : State) (k : Key) (g : Record → Record) :
    (s.updateRecord k g).free = s.free := rfl
/-! ## enterGate -/

@[simp] theorem State.enterGate_pending (s : State) (g : GateState) (x : Option Step) :
    (s.enterGate g x).pending = s.pending := rfl
@[simp] theorem State.enterGate_lines (s : State) (g : GateState) (x : Option Step) :
    (s.enterGate g x).lines = s.lines := rfl
@[simp] theorem State.enterGate_laneTable (s : State) (g : GateState) (x : Option Step) :
    (s.enterGate g x).laneTable = s.laneTable := rfl
@[simp] theorem State.enterGate_directory (s : State) (g : GateState) (x : Option Step) :
    (s.enterGate g x).directory = s.directory := rfl
@[simp] theorem State.enterGate_composer (s : State) (g : GateState) (x : Option Step) :
    (s.enterGate g x).composer = s.composer := rfl
@[simp] theorem State.enterGate_intake (s : State) (g : GateState) (x : Option Step) :
    (s.enterGate g x).intake = s.intake := rfl
@[simp] theorem State.enterGate_memory (s : State) (g : GateState) (x : Option Step) :
    (s.enterGate g x).memory = s.memory := rfl
@[simp] theorem State.enterGate_arbiter (s : State) (g : GateState) (x : Option Step) :
    (s.enterGate g x).arbiter = s.arbiter := rfl
@[simp] theorem State.enterGate_port (s : State) (g : GateState) (x : Option Step) :
    (s.enterGate g x).port = s.port := rfl
@[simp] theorem State.enterGate_free (s : State) (g : GateState) (x : Option Step) :
    (s.enterGate g x).free = s.free := rfl
/-! ## answered -/

@[simp] theorem State.answered_pending (s : State) (f : Frame) (rest : List Frame) (k : Completion) (b : List Byte) :
    (s.answered f rest k b).pending = s.pending := rfl
@[simp] theorem State.answered_lines (s : State) (f : Frame) (rest : List Frame) (k : Completion) (b : List Byte) :
    (s.answered f rest k b).lines = s.lines := rfl
@[simp] theorem State.answered_laneTable (s : State) (f : Frame) (rest : List Frame) (k : Completion) (b : List Byte) :
    (s.answered f rest k b).laneTable = s.laneTable := rfl
@[simp] theorem State.answered_directory (s : State) (f : Frame) (rest : List Frame) (k : Completion) (b : List Byte) :
    (s.answered f rest k b).directory = s.directory := rfl
@[simp] theorem State.answered_composer (s : State) (f : Frame) (rest : List Frame) (k : Completion) (b : List Byte) :
    (s.answered f rest k b).composer = s.composer := rfl
@[simp] theorem State.answered_intake (s : State) (f : Frame) (rest : List Frame) (k : Completion) (b : List Byte) :
    (s.answered f rest k b).intake = s.intake := rfl
@[simp] theorem State.answered_memory (s : State) (f : Frame) (rest : List Frame) (k : Completion) (b : List Byte) :
    (s.answered f rest k b).memory = s.memory := rfl
@[simp] theorem State.answered_arbiter (s : State) (f : Frame) (rest : List Frame) (k : Completion) (b : List Byte) :
    (s.answered f rest k b).arbiter = s.arbiter := rfl
@[simp] theorem State.answered_gate (s : State) (f : Frame) (rest : List Frame) (k : Completion) (b : List Byte) :
    (s.answered f rest k b).gate = s.gate := rfl
@[simp] theorem State.answered_free (s : State) (f : Frame) (rest : List Frame) (k : Completion) (b : List Byte) :
    (s.answered f rest k b).free = s.free := rfl
/-! ## What the changed field becomes -/

@[simp] theorem State.setFlag_flags (s : State) (b : Nat) : (s.setFlag b).port.flags = s.port.flags ||| flagMask b := rfl
@[simp] theorem State.setLaneFlag_flags (s : State) (l : LaneId) (k : LaneFlag) :
    (s.setLaneFlag l k).port.flags = s.port.flags ||| flagMask (laneFlagBit l k) := rfl
@[simp] theorem State.withCounters_counters (s : State) (g : Counters → Counters) :
    (s.withCounters g).port.counters = g s.port.counters := rfl
@[simp] theorem State.post_outbound (s : State) (r : Reply) : (s.post r).port.outbound = s.port.outbound ++ [r] := rfl
@[simp] theorem State.enterGate_gate (s : State) (g : GateState) (x : Option Step) :
    (s.enterGate g x).gate = s.gate.enter g x := rfl
@[simp] theorem State.setContext_queues (s : State) (c : CtxId) (x : Option Fiche) :
    (s.setContext c x).composer.queues = s.composer.queues := rfl
@[simp] theorem State.setQueue_contexts (s : State) (l : LaneId) (q : List CtxId) :
    (s.setQueue l q).composer.contexts = s.composer.contexts := rfl
@[simp] theorem State.setLane_classMap (s : State) (l : LaneId) (x : Lane) :
    (s.setLane l x).laneTable.classMap = s.laneTable.classMap := rfl
@[simp] theorem State.answered_waiting (s : State) (f : Frame) (rest : List Frame) (k : Completion) (b : List Byte) :
    (s.answered f rest k b).port.waiting = rest := rfl
@[simp] theorem State.answered_outbound (s : State) (f : Frame) (rest : List Frame) (k : Completion) (b : List Byte) :
    (s.answered f rest k b).port.outbound = s.port.outbound ++ [⟨f.byte 0, f.byte 1, k, b⟩] := rfl

/-! ## Reading after an update -/

theorem State.fiche_setContext (s : State) (c d : CtxId) (x : Option Fiche) :
    (s.setContext c x).fiche d = if d = c then x else s.fiche d := by
  simp only [State.fiche, State.setContext, Vector.get_eq_getElem]
  by_cases h : d = c
  · subst h; simp
  · have : ¬ c.val = d.val := fun e => h (Fin.ext e.symm)
    simp [h, this]

@[simp] theorem State.fiche_setContext_self (s : State) (c : CtxId) (x : Option Fiche) :
    (s.setContext c x).fiche c = x := by simp [State.fiche_setContext]

theorem State.fiche_setContext_of_ne {s : State} {c d : CtxId} {x : Option Fiche} (h : d ≠ c) :
    (s.setContext c x).fiche d = s.fiche d := by simp [State.fiche_setContext, h]

@[simp] theorem State.queue_setContext (s : State) (c : CtxId) (x : Option Fiche) (l : LaneId) :
    (s.setContext c x).queue l = s.queue l := rfl

@[simp] theorem State.fiche_setQueue (s : State) (l : LaneId) (q : List CtxId) (c : CtxId) :
    (s.setQueue l q).fiche c = s.fiche c := rfl

theorem State.queue_setQueue (s : State) (l m : LaneId) (q : List CtxId) :
    (s.setQueue l q).queue m = if m = l then q else s.queue m := by
  simp only [State.queue, State.setQueue, Vector.get_eq_getElem]
  by_cases h : m = l
  · subst h; simp
  · have : ¬ l.val = m.val := fun e => h (Fin.ext e.symm)
    simp [h, this]

theorem State.lane_setLane (s : State) (l m : LaneId) (x : Lane) :
    (s.setLane l x).lane m = if m = l then x else s.lane m := by
  simp only [State.lane, State.setLane, Vector.get_eq_getElem]
  by_cases h : m = l
  · subst h; simp
  · have : ¬ l.val = m.val := fun e => h (Fin.ext e.symm)
    simp [h, this]

theorem State.fiche_modifyFiche (s : State) (c d : CtxId) (g : Fiche → Fiche) :
    (s.modifyFiche c g).fiche d = if d = c then (s.fiche c).map g else s.fiche d := by
  simp [State.modifyFiche, State.fiche_setContext]

end Sys2Proof.Machine
end

