-- ==== Sys2Proof/Laws/Ops.lean ====
section
/-! SUPPORT. The shared operations: for each, one lemma that says what it can do. -/
namespace Sys2Proof.Machine

/-! ## Executing a request -/

/-- A request that is answered. -/
theorem execute_answered {s t : State} {row : RequestRow} {f : Frame} {rest : List Frame}
    {act : Frame → State → State × Answer} {k : Completion} {b : List Byte} (h : Executes s row f rest)
    (ha : act f s = (t, some (k, b))) : s.execute row act = .next (t.answered f rest k b) := by
  obtain ⟨hl, hw, hr, hf⟩ := h
  simp [State.execute, hw, hl, hr, hf, ha, State.answer, State.post, State.answered]

/-- A request that is parked: it leaves the queue and no reply joins the list. -/
theorem execute_parked {s t : State} {row : RequestRow} {f : Frame} {rest : List Frame}
    {act : Frame → State → State × Answer} (h : Executes s row f rest) (ha : act f s = (t, none)) :
    s.execute row act = .next { t with port := { t.port with waiting := rest } } := by
  obtain ⟨hl, hw, hr, hf⟩ := h
  simp [State.execute, hw, hl, hr, hf, ha, State.answer]

/-- A request that the framing checks refuse. -/
theorem execute_misframed {s : State} {row : RequestRow} {f : Frame} {rest : List Frame}
    {act : Frame → State → State × Answer} {k : Completion} (hl : s.lines.resetLine = false)
    (hw : s.port.waiting = f :: rest) (hr : f.row = row) (hf : f.framingRefusal = some k) :
    s.execute row act = .next (s.answered f rest k (s.misframedBody f)) := by
  simp [State.execute, hw, hl, hr, hf, State.answer, State.post, State.answered]

/-- Every way a request's command can end: nothing happens, or the request is refused by its framing, or it is performed;
it always answers a next state. -/
theorem execute_cases (s : State) (row : RequestRow) (act : Frame → State → State × Answer) :
    s.execute row act = .next s ∨
    ∃ f rest, s.port.waiting = f :: rest ∧ s.lines.resetLine = false ∧ f.row = row ∧
      ((∃ k, f.framingRefusal = some k ∧ s.execute row act = .next (s.answered f rest k (s.misframedBody f))) ∨
       (Executes s row f rest ∧ ∃ t, act f s = (t, none) ∧
          s.execute row act = .next { t with port := { t.port with waiting := rest } }) ∨
       (Executes s row f rest ∧ ∃ t k b, act f s = (t, some (k, b)) ∧
          s.execute row act = .next (t.answered f rest k b))) := by
  cases hw : s.port.waiting with
  | nil => left; simp [State.execute, hw]
  | cons f rest =>
    by_cases hc : s.lines.resetLine = true ∨ f.row ≠ row
    · left; simp only [State.execute, hw, if_pos hc]
    · simp only [not_or, Bool.not_eq_true, Decidable.not_not] at hc
      right
      refine ⟨f, rest, rfl, hc.1, hc.2, ?_⟩
      cases hf : f.framingRefusal with
      | some k => exact .inl ⟨k, rfl, execute_misframed hc.1 hw hc.2 hf⟩
      | none =>
        right
        have he : Executes s row f rest := ⟨hc.1, hw, hc.2, hf⟩
        rcases ha : act f s with ⟨t, _ | ⟨k, b⟩⟩
        · exact .inl ⟨he, t, rfl, execute_parked he ha⟩
        · exact .inr ⟨he, t, k, b, rfl, execute_answered he ha⟩

/-- A request's command never stops, and keeps whatever its execution and the leaving of the queue keep. -/
theorem execute_keeps {P : State → Prop} {s : State} {row : RequestRow} {act : Frame → State → State × Answer}
    (hs : P s)
    (hleave : ∀ (t : State) f rest k b, P t → s.port.waiting = f :: rest → P (t.answered f rest k b))
    (hpark : ∀ (t : State) f rest, P t → s.port.waiting = f :: rest → act f s = (t, none) →
      P { t with port := { t.port with waiting := rest } })
    (hact : ∀ f, P (act f s).1) : ∃ t, s.execute row act = .next t ∧ P t := by
  rcases execute_cases s row act with h | ⟨f, rest, hw, _, _, ⟨k, _, h⟩ | ⟨_, t, ha, h⟩ | ⟨_, t, k, b, ha, h⟩⟩
  · exact ⟨s, h, hs⟩
  · exact ⟨_, h, hleave s f rest k _ hs hw⟩
  · refine ⟨_, h, hpark t f rest ?_ hw ha⟩
    simpa [ha] using hact f
  · refine ⟨_, h, hleave t f rest k b ?_ hw⟩
    simpa [ha] using hact f

/-! ## The end of an event -/

/-- The end of an event changes at most the attention flags and the gate's lamp. -/
theorem conclude_eq (before after : State) :
    before.conclude after =
      { after with
        port := if after.filmOutCondition && !before.filmOutCondition then after.port.setFlag filmOutBit else after.port
        gate := if after.gate.lamp = .standby ∧ after.gate.state = .idle ∧ after.anyQueued then
          after.gate.lampTo .warming else after.gate } := by
  unfold State.conclude State.evalFilmOut State.wakeLamp
  by_cases h : (after.filmOutCondition && !before.filmOutCondition) = true
  · by_cases g : after.gate.lamp = .standby ∧ after.gate.state = .idle ∧ after.anyQueued = true
    · rw [if_pos h, if_pos h, if_pos g]; exact if_pos g
    · rw [if_pos h, if_pos h, if_neg g]; exact if_neg g
  · by_cases g : after.gate.lamp = .standby ∧ after.gate.state = .idle ∧ after.anyQueued = true
    · rw [if_neg h, if_neg h, if_pos g, if_pos g]
    · rw [if_neg h, if_neg h, if_neg g, if_neg g]

/-- What an event's end leaves as it was. -/
theorem conclude_frame (before after : State) :
    (before.conclude after).pending = after.pending ∧ (before.conclude after).lines = after.lines ∧
    (before.conclude after).laneTable = after.laneTable ∧ (before.conclude after).directory = after.directory ∧
    (before.conclude after).composer = after.composer ∧ (before.conclude after).intake = after.intake ∧
    (before.conclude after).memory = after.memory ∧ (before.conclude after).arbiter = after.arbiter ∧
    (before.conclude after).free = after.free := by
  rw [conclude_eq]; exact ⟨rfl, rfl, rfl, rfl, rfl, rfl, rfl, rfl, rfl⟩

/-- An event after which no fiche is queued concludes as it is. -/
theorem conclude_of_noneQueued {before after : State} (h : after.anyQueued = false) : before.conclude after = after := by
  rw [conclude_eq]; simp [State.filmOutCondition, h]

/-! ## The stall test -/

/-- The stall test leaves the state, or takes the lowest buffers of the pool for the stalled transfer. -/
theorem stallTest_cases (s : State) : s.stallTest = s ∨
    ∃ m, s.intake = .stalled m ∧ s.poolHas m.span.cells = true ∧ s.stallTest = s.reserve m := by
  unfold State.stallTest
  split
  · rename_i m hm
    by_cases h : s.poolHas m.span.cells = true
    · exact .inr ⟨m, hm, h, if_pos h⟩
    · exact .inl (if_neg h)
  all_goals exact .inl rfl

theorem reserve_eq (s : State) (m : Matched) :
    s.reserve m = { s with
      intake := .receiving m (s.freePool.take m.span.cells) 0 [] []
      memory := (s.freePool.take m.span.cells).foldl (fun mem b => mem.setExtent b none) s.memory } := rfl

/-- What the stall test leaves as it was. -/
theorem stallTest_frame (s : State) :
    s.stallTest.pending = s.pending ∧ s.stallTest.lines = s.lines ∧ s.stallTest.laneTable = s.laneTable ∧
    s.stallTest.directory = s.directory ∧ s.stallTest.composer = s.composer ∧ s.stallTest.arbiter = s.arbiter ∧
    s.stallTest.gate = s.gate ∧ s.stallTest.port = s.port ∧ s.stallTest.free = s.free ∧
    s.stallTest.memory.spots = s.memory.spots ∧ s.stallTest.memory.upsets = s.memory.upsets := by
  have hfold : ∀ (bs : List Nat) (mem : Memory),
      (bs.foldl (fun mem b => mem.setExtent b none) mem).spots = mem.spots ∧
      (bs.foldl (fun mem b => mem.setExtent b none) mem).upsets = mem.upsets := by
    intro bs
    induction bs with
    | nil => intro mem; exact ⟨rfl, rfl⟩
    | cons b bs ih => intro mem; exact ih (mem.setExtent b none)
  rcases stallTest_cases s with h | ⟨m, _, _, h⟩
  · rw [h]; exact ⟨rfl, rfl, rfl, rfl, rfl, rfl, rfl, rfl, rfl, rfl, rfl⟩
  · rw [h, reserve_eq]
    exact ⟨rfl, rfl, rfl, rfl, rfl, rfl, rfl, rfl, rfl, (hfold _ _).1, (hfold _ _).2⟩

/-! ## Fiches leaving composition, queues and interruptions -/

theorem queueFiche_of_fiche {s : State} {c : CtxId} {f : Fiche} (h : s.fiche c = some f) :
    s.queueFiche c =
      (s.setContext c (some { f with state := .queued, timer := none })).setQueue f.lane (s.queue f.lane ++ [c]) := by
  simp [State.queueFiche, h]

theorem putBack_of_fiche {s : State} {c : CtxId} {f : Fiche} (h : s.fiche c = some f) :
    s.putBack c =
      (s.setContext c (some { f with state := .queued, cellsDone := 0 })).setQueue f.lane (c :: s.queue f.lane) := by
  simp [State.putBack, h]

theorem closeFiche_of_fiche {s : State} {c : CtxId} {f : Fiche} (k : CloseCause) (h : s.fiche c = some f) :
    s.closeFiche c k =
      let t := s.setContext c (some { f with state := .closing, cause := some k, timer := some f.imageWait })
      if f.countImages .awaiting = 0 then t.queueFiche c else if f.imageWait = 0 then t.expireImageWait c else t := by
  simp [State.closeFiche, h]

theorem interruptFiche_of_fiche {s : State} {c : CtxId} {f : Fiche} (h : s.fiche c = some f) :
    s.interruptFiche c =
      if f.attempts + 1 < 3 then (s.modifyFiche c fun f => { f with attempts := f.attempts + 1 }).putBack c
      else ((s.setContext c (some { f with state := .failed, attempts := f.attempts + 1, cellsDone := 0 })).setLaneFlag
        f.lane .failed).settleFences c .notExposed := by
  simp [State.interruptFiche, h]

/-! ## Cell maps -/

theorem mapCellsFrom_length (g : Nat → Cell → Cell) (es : List Cell) : ∀ i, (mapCellsFrom g i es).length = es.length := by
  induction es with
  | nil => intro i; rfl
  | cons e es ih => intro i; simp [mapCellsFrom, ih]

theorem mapCellsFrom_getElem? (g : Nat → Cell → Cell) (es : List Cell) :
    ∀ i n, (mapCellsFrom g i es)[n]? = es[n]?.map (g (i + n)) := by
  induction es with
  | nil => intro i n; simp [mapCellsFrom]
  | cons e es ih =>
    intro i n
    cases n with
    | zero => simp [mapCellsFrom]
    | succ n => simp [mapCellsFrom, ih]; congr 2; omega

@[simp] theorem mapCells_length (g : Nat → Cell → Cell) (es : List Cell) : (mapCells g es).length = es.length :=
  mapCellsFrom_length g es 0

/-- Entry n of a rewritten cell map is entry n rewritten. -/
theorem mapCells_getElem? (g : Nat → Cell → Cell) (es : List Cell) (n : Nat) :
    (mapCells g es)[n]? = es[n]?.map (g n) := by
  simp [mapCells, mapCellsFrom_getElem?]

end Sys2Proof.Machine
end

