-- ==== Sys2Proof/Tests/Slice0.lean ====
section
/-! SUPPORT. Small tests: ill-formed commands, figures of the manual's worked examples, and for each statement with
hypotheses a state and operands that meet them. -/
namespace Sys2Proof.Tests
open Sys2Proof Sys2Proof.Machine
set_option Elab.async false

/-! ## Helpers -/

/-- A well-framed request of a code with this body, sequence 9. -/
def request (code : Nat) (body : List Nat) : Frame :=
  ⟨([code, 9, body.length / 256, body.length % 256] ++ body).map (BitVec.ofNat 8), false⟩

/-- A state whose only waiting request is f. -/
def asking (s : State) (f : Frame) : State := { s with port := { s.port with waiting := [f] } }

/-- The completion and the body of the last reply in the outbound list of a next state. -/
def answerOf : Host.Outcome State Fault Refusal → Option (Completion × List Nat)
  | .next t => t.port.outbound.getLast?.map fun r => (r.completion, r.body.map BitVec.toNat)
  | .fault _ | .refused _ => none

/-- A part of a next state. -/
def nextWith {α : Type} (g : State → α) : Host.Outcome State Fault Refusal → Option α
  | .next t => some (g t)
  | .fault _ | .refused _ => none

def faultOf : Host.Outcome State Fault Refusal → Option Fault
  | .fault e => some e
  | .next _ | .refused _ => none

/-- The state, from `s`, whose only waiting request is `f`, meets the premise of a request row. -/
def ready (s : State) (row : RequestRow) (f : Frame) : Bool :=
  !s.lines.resetLine && f.row == row && (f.framingRefusal == none)

theorem executes_of_ready (s : State) (row : RequestRow) (f : Frame) (h : ready s row f = true) :
    Executes (asking s f) row f [] := by
  simp only [ready, Bool.and_eq_true, Bool.not_eq_true', beq_iff_eq] at h
  exact ⟨h.1.1, rfl, h.1.2, h.2⟩

def sampleDef : LaneDef where
  enabled := true
  format := .g1
  k := 1
  split := .allow
  line1 := ⟨[65], .normal⟩
  line2 := ⟨[], .normal⟩
  spacing := 0
  serialPosition := some ⟨.line1, 2⟩
  polarity := .negative
  curve := 0
  gain := 1024
  bias := 0
  imageWait := 10

/-- Lane 0 defined, next serial 6. -/
def laneReady (d : LaneDef) : State :=
  { State.reset with laneTable := { State.reset.laneTable with lanes := State.reset.laneTable.lanes.set 0 ⟨6, some d⟩ } }

/-- Key 5, two pages, on context 0. -/
def sampleRecord : Record := ⟨5, 0, 0, .single, 2, 0, [⟨0, 5, 0, 1, 2⟩], 0⟩

/-- The fiche that carries it. -/
def carrying (x : FicheState) : Fiche := { freshFiche 0 sampleDef 5 5 .single 1 2 with state := x }

def holding (x : Fiche) : State := { (laneReady sampleDef).setContext 0 (some x) with directory := [sampleRecord] }

/-- The fiche with both pages' images in buffers 0 and 1. -/
def imaged (x : FicheState) : Fiche :=
  { carrying x with cells := attachCells (carrying x).cells 0 [0, 1] false }

def withGate (s : State) (g : GateState) : State := { s with gate := { s.gate with state := g } }

def withLamp (s : State) (l : LampState) : State := { s with gate := { s.gate with lamp := l } }

def asserted : State := { State.reset with lines := ⟨true, false, false⟩ }

/-! ## Well-formed commands, steps and resets -/

theorem test_wellFormed_bounds :
    (Instr.imageWaitExpiry 7).wellFormed = true ∧ (Instr.imageWaitExpiry 8).wellFormed = false ∧
    (Instr.storageUpset 4095 1535 255 71).wellFormed = true ∧ (Instr.storageUpset 4096 0 0 0).wellFormed = false ∧
    (Instr.storageUpset 0 1536 0 0).wellFormed = false ∧ (Instr.storageUpset 0 0 256 0).wellFormed = false ∧
    (Instr.storageUpset 0 0 0 72).wellFormed = false := by decide

theorem test_illFormed_faults :
    faultOf (exec (.imageWaitExpiry 8) State.reset) = some .noSuchContext ∧
    faultOf (exec (.storageUpset 4096 0 0 0) State.reset) = some .noSuchStorage ∧
    faultOf (exec (.storageUpset 0 1536 0 0) State.reset) = some .noSuchStorage ∧
    faultOf (exec (.storageUpset 0 0 256 0) State.reset) = some .noSuchStorage ∧
    faultOf (exec (.storageUpset 0 0 0 72) State.reset) = some .noSuchStorage := by decide +kernel

/-- O1: a queue with a command at its front, and an empty one. -/
theorem witness_StepRunsFrontCommand :
    ({ State.reset with pending := [.jam, .doorOpen] } : State).pending = .jam :: [.doorOpen] ∧
    State.reset.pending = [] := ⟨rfl, rfl⟩

/-- O4: the clauses about the asserted line, with either level of frame-select. -/
theorem witness_ResetLine :
    asserted.lines.resetLine = true ∧
    nextWith (fun t => t.lines) (exec (.resetLineRelease false) asserted) = some ⟨false, false, false⟩ ∧
    nextWith (fun t => t.lines) (exec (.resetLineRelease true) asserted) = some ⟨false, false, true⟩ := by decide +kernel

theorem test_resetLine_keepsCounters :
    nextWith (fun t => (t.port.counters, t.port.flags, t.intake, t.attentionLine, t.holdLine)) (exec .resetLine
      { State.reset with
        intake := .ready [1]
        port := { State.reset.port with flags := 1#24, counters := ⟨1, 2, 3, 4, 5, 6, 7⟩ } }) =
      some (⟨1, 2, 3, 4, 5, 6, 7⟩, 0#24, .ready [], false, true) := by decide +kernel

theorem test_powerOn : nextWith (fun t => (t.port.counters, t.directory, t.gate.film)) (exec .powerOn
    { holding (carrying .queued) with port := { State.reset.port with counters := ⟨1, 2, 3, 4, 5, 6, 7⟩ } }) =
    some (Counters.zero, [], 0) := by decide +kernel

/-! ## Shared operations -/

/-- O5. -/
theorem witness_Queues :
    (holding (carrying .closing)).fiche 0 = some (carrying .closing) ∧
    (((holding (carrying .closing)).queueFiche 0).queue 0 = [0]) ∧
    (withGate (withLamp (holding (carrying .closing)) .standby) .idle).gate.lamp = .standby := by decide +kernel

/-- FILM_OUT and the wake of the lamp when a fiche joins an empty queue. -/
theorem test_conclude :
    (((withLamp (holding (carrying .closing)) .standby).conclude
      ((withLamp (holding (carrying .closing)) .standby).queueFiche 0)).gate.lamp = .warming) ∧
    (((holding (carrying .closing)).conclude ((holding (carrying .closing)).queueFiche 0)).port.flags =
      0x080000#24) := by decide +kernel

def sampleHeader : Header := ⟨5, 1, 8, 2, 2⟩

def sampleMatched : Matched := ⟨sampleHeader, .g1, .single, figuresOf sampleHeader .g1 .single⟩

/-- A context whose cells hold every buffer: no run reaches it, and the pool is empty in it. -/
def poolless : State := State.reset.setContext 0 (some { carrying .composing with
  cells := (List.range 4096).map fun b => .occupied ⟨5, 1, .whole, .present, some b, false, false⟩ })

theorem poolless_pool : poolless.freePool = [] := by
  have hb : ∀ b < 4096, b ∈ poolless.heldBuffers := by
    intro b hb
    simp only [State.heldBuffers, List.mem_append, State.cellBuffers, List.mem_flatMap]
    refine Or.inr ⟨some { carrying .composing with
      cells := (List.range 4096).map fun b => .occupied ⟨5, 1, .whole, .present, some b, false, false⟩ }, ?_, ?_⟩
    · exact List.mem_of_getElem? (i := 0) rfl
    · simp only [Option.map_some, Option.getD_some, Fiche.buffers, Fiche.entries, List.filterMap_map, List.mem_filterMap]
      exact ⟨⟨5, 1, .whole, .present, some b, false, false⟩, ⟨b, List.mem_range.2 hb, rfl⟩, rfl⟩
  refine List.filter_eq_nil_iff.2 fun b hm => ?_
  have : b < 4096 := by simpa [bufferCount] using (List.mem_range'_1.1 hm).2
  simp [hb b this]

/-- O6: a stalled transfer with the pool large enough, at 0 buffers, and no stall; a memory in canonical form. -/
theorem witness_StallTest :
    sampleMatched.span.cells ≤ ({ State.reset with intake := .stalled sampleMatched } : State).freePool.length ∧
    ({ poolless with intake := .stalled sampleMatched } : State).freePool.length < sampleMatched.span.cells ∧
    (∀ m, State.reset.intake ≠ .stalled m) ∧ State.reset.memory.wf = true ∧
    [0, 1].map (State.reset.memory.setExtent 1 (some .g2)).extent = [none, some .g2] := by
  refine ⟨by decide +kernel, ?_, (fun m h => nomatch h), by decide +kernel, by decide +kernel⟩
  have : ({ poolless with intake := .stalled sampleMatched } : State).freePool = [] := poolless_pool
  rw [this]; decide

/-! ## Lane Table -/

/-- The fields of a DEFINE LANE at their upper bounds; the titles are spaces. -/
def defineBody (l enabled format k split l1 s1 l2 s2 spacing line column action value polarity curve gain bias wait : Nat) :
    List Nat :=
  [l, enabled, format, k, split, l1, s1, l2, s2, spacing, line, column, action, value / 65536, value / 256 % 256,
    value % 256, polarity, curve, gain / 256, gain % 256, bias / 256, bias % 256, wait] ++ List.replicate (l1 + l2) 32

/-- O7: every field at its greatest value, and with no serial position, KEEP and the lane disabled. -/
theorem witness_DefineLane :
    Executes (asking State.reset (request 0x10 (defineBody 3 1 4 3 1 40 3 40 3 15 2 39 1 999999 1 3 4095 2047 255)))
      .defineLane (request 0x10 (defineBody 3 1 4 3 1 40 3 40 3 15 2 39 1 999999 1 3 4095 2047 255)) [] ∧
    (∀ l, State.reset.composingContext l = none) ∧ (∀ c, State.reset.fiche c = none) ∧
    (laneDefOf (request 0x10 (defineBody 3 1 4 3 1 40 3 40 3 15 2 39 1 999999 1 3 4095 2047 255)).body).isSome = true ∧
    (laneDefOf (request 0x10 (defineBody 0 0 1 0 0 0 0 0 0 0 0 255 0 0 0 0 0 0 0)).body).isSome = true := by
  refine ⟨executes_of_ready _ _ _ ?_, ?_⟩ <;> decide +kernel

/-- The adjustments of R13 and their indications: G 127 and 4096, B 2048, spacing 16, one character of code 31. -/
theorem test_defineLane_adjusts :
    (answerOf (exec .defineLane (asking State.reset
      (request 0x10 (defineBody 1 1 1 1 0 0 0 0 0 16 1 39 1 70 0 0 127 2048 60))))).map (·.2.drop 9) =
      some ([15, 1, 39, 0, 0, 0, 70, 0, 0, 0, 128, 7, 255, 60] ++ [1, 1, 1, 0]) ∧
    (answerOf (exec .defineLane (asking State.reset (request 0x10
      ([1, 1, 1, 1, 0, 1, 0, 0, 0, 0, 1, 0, 0, 0, 0, 0, 0, 0, 16, 0, 0, 0, 0] ++ [31]))))).map (·.2.drop 18) =
      some [15, 255, 0, 0, 0, 63, 2, 0, 0, 1] := by decide +kernel

/-- O8: each field one past its range; then a disabled lane with a live context, and SET on a lane that composes. -/
theorem witness_DefineLaneRefusals :
    (∀ b ∈ [defineBody 4 1 1 0 0 0 0 0 0 0 0 0 0 0 0 0 1024 0 0, defineBody 0 2 1 0 0 0 0 0 0 0 0 0 0 0 0 0 1024 0 0,
        defineBody 0 1 0 0 0 0 0 0 0 0 0 0 0 0 0 0 1024 0 0, defineBody 0 1 5 0 0 0 0 0 0 0 0 0 0 0 0 0 1024 0 0,
        defineBody 0 1 1 4 0 0 0 0 0 0 0 0 0 0 0 0 1024 0 0, defineBody 0 1 1 0 2 0 0 0 0 0 0 0 0 0 0 0 1024 0 0,
        defineBody 0 1 1 0 0 41 0 0 0 0 0 0 0 0 0 0 1024 0 0, defineBody 0 1 1 0 0 0 4 0 0 0 0 0 0 0 0 0 1024 0 0,
        defineBody 0 1 1 0 0 0 0 41 0 0 0 0 0 0 0 0 1024 0 0, defineBody 0 1 1 0 0 0 0 0 4 0 0 0 0 0 0 0 1024 0 0,
        defineBody 0 1 1 0 0 0 0 0 0 0 3 0 0 0 0 0 1024 0 0, defineBody 0 1 1 0 0 0 0 0 0 0 1 40 0 0 0 0 1024 0 0,
        defineBody 0 1 1 0 0 0 0 0 0 0 0 0 2 0 0 0 1024 0 0, defineBody 0 1 1 0 0 0 0 0 0 0 0 0 1 1000000 0 0 1024 0 0,
        defineBody 0 1 1 0 0 0 0 0 0 0 0 0 0 0 2 0 1024 0 0, defineBody 0 1 1 0 0 0 0 0 0 0 0 0 0 0 0 4 1024 0 0],
      ready State.reset .defineLane (request 0x10 b) = true ∧
      answerOf (exec .defineLane (asking State.reset (request 0x10 b))) = some (.malformed, [])) ∧
    (∀ b ∈ [defineBody 0 0 1 0 0 0 0 0 0 0 0 0 0 0 0 0 1024 0 0, defineBody 0 1 1 0 0 0 0 0 0 0 0 0 1 0 0 0 1024 0 0],
      ready (holding (carrying .composing)) .defineLane (request 0x10 b) = true ∧
      (laneDefOf (request 0x10 b).body).isSome = true ∧
      answerOf (exec .defineLane (asking (holding (carrying .composing)) (request 0x10 b))) = some (.busy, [])) := by
  decide +kernel

/-- O9: class 16, lane 4 and class 0 off lane 0 are refused; class 15 on lane 3, and class 0 on lane 0, are mapped. -/
theorem witness_MapClass :
    (∀ b ∈ [[16, 0], [0, 4], [0, 1]], ready State.reset .mapClass (request 0x11 b) = true ∧
      answerOf (exec .mapClass (asking State.reset (request 0x11 b))) = some (.malformed, [])) ∧
    (∀ b ∈ [[15, 3], [0, 0]], ready State.reset .mapClass (request 0x11 b) = true ∧
      answerOf (exec .mapClass (asking State.reset (request 0x11 b))) = some (.ok, b ++ [0])) := by decide +kernel

/-! ## Placement Directory -/

def key5 : List Nat := [0, 0, 0, 0, 0, 5]
def key6 : List Nat := [0, 0, 0, 0, 0, 6]

/-- O10: a record with one part on a live context, one split by its first page, and one of two parts; pages present of
two pages PRESENT, and of two AWAITING. -/
theorem witness_DerivedRecordItems :
    (sampleRecord.parts = [⟨0, 5, 0, 1, 2⟩] ∧ (holding (carrying .composing)).fiche 0 = some (carrying .composing)) ∧
    ((⟨5, 0, 0, .single, 2, 0, [⟨0, 5, 0, 2, 1⟩], 1⟩ : Record).isSplit = true ∧ sampleRecord.isSplit = false) ∧
    (⟨5, 0, 0, .single, 2, 0, [⟨0, 5, 0, 1, 1⟩, ⟨1, 6, 0, 2, 1⟩], 0⟩ : Record).isSplit = true ∧
    (∀ i < 2, ((imaged .composing).cells[0 + i * Span.single.cells + 0]?.bind Cell.entry).map (·.page) = some (1 + i)) ∧
    (holding (imaged .composing)).pagesPresent sampleRecord ⟨0, 5, 0, 1, 2⟩ = 2 ∧
    (holding (carrying .composing)).pagesPresent sampleRecord ⟨0, 5, 0, 1, 2⟩ = 0 := by decide +kernel

/-- O10, O18: a record all of whose parts are on COMPOSING contexts, and one part elsewhere; the buffers its cells hold. -/
theorem witness_FrozenAndBuffers :
    (holding (carrying .composing)).allComposing sampleRecord = true ∧
    (holding (carrying .closing)).allComposing sampleRecord = false ∧
    (holding (carrying .composing)).allComposing { sampleRecord with parts := [⟨0, 5, 0, 1, 1⟩, ⟨1, 6, 0, 2, 1⟩] } = false ∧
    (holding (imaged .composing)).recordBuffers sampleRecord = [0, 1] ∧
    (holding (carrying .composing)).recordBuffers sampleRecord = [] := by decide +kernel

/-- O11. -/
theorem witness_LookupHeld :
    ready (holding (imaged .composing)) .lookup (request 0x20 key5) = true ∧
    (asking (holding (imaged .composing)) (request 0x20 key5)).record (fieldKey (request 0x20 key5).body 0) =
      some sampleRecord ∧
    answerOf (exec .lookup (asking (holding (imaged .composing)) (request 0x20 key5))) = some (.ok,
      key5 ++ [0, 0, 0, 2, 0, 0, 0, 0, 0, 0, 0, 1] ++ [0, 0, 0, 5, 0, 0, 65, 48, 49, 1, 0, 2, 0, 0, 2, 0, 0, 0]) := by
  decide +kernel

def twoKeys : State := { State.reset with directory := [sampleRecord, { sampleRecord with key := 9 }] }

/-- O12: the four positions, each beside or between the keys held. -/
theorem witness_LookupAbsent :
    (twoKeys.DirectoryOrdered ∧ State.reset.DirectoryOrdered) ∧
    answerOf (exec .lookup (asking State.reset (request 0x20 key5))) =
      some (.notFound, [0, 0, 0, 0, 0, 0, 0, 0, 0, 0, 0, 0, 0, 0, 0]) ∧
    answerOf (exec .lookup (asking twoKeys (request 0x20 [0, 0, 0, 0, 0, 4]))) =
      some (.notFound, [1, 0, 0, 0, 0, 0, 0, 0, 1, 0, 0, 0, 0, 0, 5]) ∧
    answerOf (exec .lookup (asking twoKeys (request 0x20 [0, 0, 0, 0, 0, 10]))) =
      some (.notFound, [2, 1, 0, 0, 0, 0, 0, 9, 0, 0, 0, 0, 0, 0, 0]) ∧
    (∀ k ∈ [6, 8], answerOf (exec .lookup (asking twoKeys (request 0x20 [0, 0, 0, 0, 0, k]))) =
      some (.notFound, [3, 1, 0, 0, 0, 0, 0, 5, 1, 0, 0, 0, 0, 0, 9])) ∧
    ready twoKeys .lookup (request 0x20 key6) = true := by
  unfold State.DirectoryOrdered; decide +kernel

/-- O13: lane filter 4 and 254, state sets 0 and 8; filters 0 and 255 with sets 1 and 7, and none above the key. -/
theorem witness_FindNext :
    (∀ b ∈ [[4, 1], [254, 1], [0, 0], [0, 8]],
      ready (holding (carrying .composing)) .findNext (request 0x21 ([0, 0, 0, 0, 0, 0] ++ b)) = true ∧
      answerOf (exec .findNext (asking (holding (carrying .composing)) (request 0x21 ([0, 0, 0, 0, 0, 0] ++ b)))) =
        some (.malformed, [])) ∧
    (∀ b ∈ [[0, 1], [255, 7]],
      (answerOf (exec .findNext (asking (holding (carrying .composing)) (request 0x21 ([0, 0, 0, 0, 0, 4] ++ b))))).map
        (·.2.take 6) = some key5) ∧
    (∀ b ∈ [[3, 1], [255, 6]],
      answerOf (exec .findNext (asking (holding (carrying .composing)) (request 0x21 ([0, 0, 0, 0, 0, 4] ++ b)))) =
        some (.notFound, [])) ∧
    (holding (carrying .composing)).DirectoryOrdered := by
  unfold State.DirectoryOrdered; decide +kernel

def amendBody (key : List Nat) (changes : Nat) (newKey : List Nat) (n expected tests : Nat) : List Nat :=
  key ++ [changes] ++ newKey ++ [n, expected / 256, expected % 256, tests]

def amended (s : State) (b : List Nat) : Host.Outcome State Fault Refusal := exec .amend (asking s (request 0x22 b))

/-- A record of one WIDE page on context 0. -/
def wideRecord : Record := ⟨5, 0, 0, .wide, 1, 0, [⟨0, 5, 0, 1, 1⟩], 0⟩

def holdingWide : State :=
  { (laneReady sampleDef).setContext 0 (some (freshFiche 0 sampleDef 5 5 .wide 1 1)) with directory := [wideRecord] }

/-- O14: each refusal in its order; NO_ROOM for 128 cells on a fiche of 71 usable. -/
theorem witness_AmendRefusals :
    (∀ b ∈ [amendBody key5 0 key6 1 0 0, amendBody key5 4 key6 1 0 0, amendBody key5 2 key6 0 0 0,
        amendBody key5 2 key6 65 0 0, amendBody key5 1 key6 0 0 8],
      ready (holding (carrying .composing)) .amend (request 0x22 b) = true ∧
      answerOf (amended (holding (carrying .composing)) b) = some (.malformed, [])) ∧
    answerOf (amended (holding (carrying .composing)) (amendBody key6 3 key6 64 0 7)) = some (.notFound, []) ∧
    answerOf (amended (holding (carrying .queued)) (amendBody key5 2 key6 1 0 0)) = some (.frozen, []) ∧
    answerOf (amended (holding (carrying .composing)) (amendBody key5 2 key6 1 1 4)) = some (.condition, [0, 0]) ∧
    answerOf (amended { holding (carrying .composing) with
      directory := [sampleRecord, { sampleRecord with key := 6 }] } (amendBody key5 1 key6 0 0 0)) =
      some (.duplicate, []) ∧
    answerOf (amended { holding (carrying .composing) with
      directory := [{ sampleRecord with pageCount := 3 }] } (amendBody key5 2 key6 1 0 0)) = some (.splitFixed, []) ∧
    answerOf (amended holdingWide (amendBody key5 2 key6 64 0 0)) = some (.noRoom, []) ∧
    runIsFree (freshFiche 0 sampleDef 5 5 .wide 1 1).cells 71 2 126 = false := by decide +kernel

/-- O14: with 128 cells asked for, no run of the 71 usable cells is free, wherever it begins. -/
theorem witness_AmendNoRun (cells : List Cell) (g : Nat) : runIsFree cells (usableCells .g1 1) g (64 * Span.wide.cells) = false := by
  have : usableCells .g1 1 = 71 := by decide
  simp only [runIsFree, this, Span.cells, Bool.and_eq_false_iff, decide_eq_false_iff_not]
  left; omega

/-- O15: a new key alone, with the count it has, and the key it has. -/
theorem witness_AmendRekeys :
    ready (holding (carrying .composing)) .amend (request 0x22 (amendBody key5 1 key6 0 0 7)) = true ∧
    (holding (carrying .composing)).record 5 = some sampleRecord ∧ (holding (carrying .composing)).record 6 = none ∧
    (holding (carrying .composing)).allComposing sampleRecord = true ∧
    conditionHolds 0 0 7 = true ∧
    answerOf (amended (holding (carrying .composing)) (amendBody key5 1 key6 0 0 7)) =
      some (.ok, key6 ++ [2, 0, 1, 0, 0]) ∧
    (∀ k ∈ [key5, key6], ready (holding (carrying .composing)) .amend (request 0x22 (amendBody key5 3 k 2 0 7)) = true ∧
      answerOf (amended (holding (carrying .composing)) (amendBody key5 3 k 2 0 7)) =
        some (.ok, k ++ [2, 0, 1, 0, 0])) := by decide +kernel

/-- O16: a shrink to one page, the count it has and a grow to 64, each where the record lies; with change set 3, under a new
key and under its own. -/
theorem witness_AmendResizes :
    (∀ m ∈ [1, 2, 64], ready (holding (carrying .composing)) .amend (request 0x22 (amendBody key5 2 key6 m 0 4)) = true ∧
      answerOf (amended (holding (carrying .composing)) (amendBody key5 2 key6 m 0 4)) =
        some (.ok, key5 ++ [m, 0, 1, 0, 0])) ∧
    (∀ m ∈ [1, 64], ∀ k ∈ [key5, key6],
      ready (holding (carrying .composing)) .amend (request 0x22 (amendBody key5 3 k m 0 4)) = true ∧
      answerOf (amended (holding (carrying .composing)) (amendBody key5 3 k m 0 4)) =
        some (.ok, k ++ [m, 0, 1, 0, 0])) ∧
    runIsFree (carrying .composing).cells (usableCells .g1 1) 2 62 = true ∧ sampleRecord.isSplit = false := by
  decide +kernel

/-- Another page of key 6 at cell 2, behind the two of key 5. -/
def crowded : Fiche := { carrying .composing with
  cells := occupyRun (imaged .composing).cells 6 .single 2 1 1, indexUsed := 2 }

def holdingBoth : State := { holding crowded with
  directory := [sampleRecord, ⟨6, 0, 0, .single, 1, 0, [⟨0, 5, 2, 1, 1⟩], 0⟩] }

/-- O17: the record of two pages grows to three and moves behind its neighbour, to cell 3, with its buffers; with change
set 3 it takes key 9 on the way. -/
theorem witness_AmendMoves :
    ready holdingBoth .amend (request 0x22 (amendBody key5 2 key6 3 0 0)) = true ∧
    runIsFree crowded.cells (usableCells .g1 1) 2 1 = false ∧
    runIsFree (freeRun crowded.cells 0 2) (usableCells .g1 1) 3 3 = true ∧
    (∀ h < 3, runIsFree (freeRun crowded.cells 0 2) (usableCells .g1 1) h 3 = false) ∧
    nextWith (fun t => ((t.fiche 0).map fun x => x.cells.take 6 |>.map fun e => e.entry.bind (·.buffer)))
      (amended holdingBoth (amendBody key5 2 key6 3 0 0)) = some (some [none, none, none, some 0, some 1, none]) ∧
    nextWith (fun t => (t.directory.map fun r => (r.key, r.revision),
        (t.fiche 0).map fun x => x.cells.take 6 |>.map fun e => e.entry.map (·.key)))
      (amended holdingBoth (amendBody key5 3 [0, 0, 0, 0, 0, 9] 3 0 0)) =
        some ([(6, 0), (9, 1)], some [none, none, some 6, some 9, some 9, some 9]) := by
  decide +kernel

/-- O18: test set 8; an absent key; a record on a QUEUED context; an expected revision that fails; and the removal. -/
theorem witness_Withdraw :
    answerOf (exec .withdraw (asking (holding (imaged .composing)) (request 0x23 (key5 ++ [0, 0, 8])))) =
      some (.malformed, []) ∧
    answerOf (exec .withdraw (asking (holding (imaged .composing)) (request 0x23 (key6 ++ [0, 0, 7])))) =
      some (.notFound, []) ∧
    answerOf (exec .withdraw (asking (holding (imaged .queued)) (request 0x23 (key5 ++ [0, 0, 0])))) =
      some (.frozen, []) ∧
    answerOf (exec .withdraw (asking (holding (imaged .composing)) (request 0x23 (key5 ++ [0, 1, 4])))) =
      some (.condition, [0, 0]) ∧
    answerOf (exec .withdraw (asking (holding (imaged .composing)) (request 0x23 (key5 ++ [0, 0, 7])))) =
      some (.ok, key5 ++ [0, 0, 0, 2, 0, 2]) ∧
    ready (holding (imaged .composing)) .withdraw (request 0x23 (key5 ++ [0, 0, 8])) = true := by decide +kernel

/-- O19: lane filter 4 and 254 are refused; 3 selects nothing; 0 and 255 withdraw the record; a QUEUED one is skipped. -/
theorem witness_Purge :
    (∀ n ∈ [4, 254], answerOf (exec .purge (asking (holding (carrying .composing))
      (request 0x24 (key5 ++ key5 ++ [n])))) = some (.malformed, [])) ∧
    answerOf (exec .purge (asking (holding (carrying .composing)) (request 0x24 (key5 ++ key5 ++ [3])))) =
      some (.ok, [0, 0, 0, 0]) ∧
    (∀ n ∈ [0, 255], answerOf (exec .purge (asking (holding (carrying .composing))
      (request 0x24 (key5 ++ key5 ++ [n])))) = some (.ok, [0, 1, 0, 0])) ∧
    answerOf (exec .purge (asking (holding (carrying .queued)) (request 0x24 (key5 ++ key5 ++ [255])))) =
      some (.ok, [0, 0, 0, 1]) ∧
    ready (holding (carrying .composing)) .purge (request 0x24 (key5 ++ key5 ++ [255])) = true ∧
    (holding (carrying .composing)).DirectoryOrdered := by
  unfold State.DirectoryOrdered; decide +kernel

/-! ## Fiche Composer -/

def placed (s : State) (b : List Nat) : Host.Outcome State Fault Refusal := exec .place (asking s (request 0x30 b))

/-- A fiche of lane 0 with a smaller format than the lane's: 71 usable cells where the lane's now has 72. -/
def wholeDef : LaneDef := { sampleDef with k := 0 }

/-- The hypotheses of PLACE at the greatest document: 36 WIDE pages in 72 cells. -/
theorem witness_PlacePasses :
    PlacePasses (asking (laneReady wholeDef) (request 0x30 (key6 ++ [15, 36, 1])))
      (request 0x30 (key6 ++ [15, 36, 1])) [] 15 .wide 0 wholeDef ∧
    PlacePasses (asking (laneReady wholeDef) (request 0x30 (key6 ++ [0, 64, 0])))
      (request 0x30 (key6 ++ [0, 64, 0])) [] 0 .single 0 wholeDef := by
  unfold PlacePasses Executes; decide +kernel

/-- O20: 69 cells free behind the first two: 64 pages go to cell 2, and a WIDE page to cell 2. -/
theorem witness_PlaceFits :
    (holding (carrying .composing)).composingContext 0 = some 0 ∧ (carrying .composing).indexUsed < 48 ∧
    runIsFree (carrying .composing).cells (usableCells .g1 1) 2 64 = true ∧
    (∀ h < 2, runIsFree (carrying .composing).cells (usableCells .g1 1) h 64 = false) ∧
    answerOf (placed (holding (carrying .composing)) (key6 ++ [0, 64, 0])) = some (.ok,
      key6 ++ [0, 0, 0, 1] ++ [0, 0, 0, 5, 0, 2, 65, 48, 51, 1, 0, 64] ++ List.replicate 17 0) ∧
    nextWith (fun t => t.fiche 0) (placed (holding (carrying .composing)) (key6 ++ [0, 1, 1])) = some (some
      { carrying .composing with cells := occupyRun (carrying .composing).cells 6 .wide 2 1 1, indexUsed := 2 }) := by
  decide +kernel

/-- O20: a run that ends at the last usable cell, and one that passes it; a run beside an occupied cell, and one that takes
it in; a run made free; and a record put between two keys. -/
theorem witness_RunsOfCells :
    (usableCells .g1 0 = 72 ∧ usableCells .g1 1 = 71) ∧
    runIsFree (carrying .composing).cells 71 70 1 = true ∧ runIsFree (carrying .composing).cells 71 70 2 = false ∧
    runIsFree (carrying .composing).cells 71 2 69 = true ∧ runIsFree (carrying .composing).cells 71 1 1 = false ∧
    (freeRun (carrying .composing).cells 1 1)[1]? = some .free ∧
    (freeRun (carrying .composing).cells 1 1)[0]? = (carrying .composing).cells[0]? ∧
    (insertRecord { sampleRecord with key := 7 } twoKeys.directory).map (·.key) = [5, 7, 9] := by decide +kernel

/-- A fiche that keeps documents whole and carries one, on a lane whose format has since grown to 72 usable cells. -/
def keeping (x : Fiche) : State :=
  { (laneReady wholeDef).setContext 0 (some { x with split := .keep }) with directory := [sampleRecord] }

theorem no_run_of_72 (cells : List Cell) (g : Nat) : runIsFree cells (usableCells .g1 1) g (36 * Span.wide.cells) = false := by
  have : usableCells .g1 1 = 71 := by decide
  simp only [runIsFree, this, Span.cells, Bool.and_eq_false_iff, decide_eq_false_iff_not]
  left; omega

/-- O21: a fiche closed complete, with pages awaited, and with an image wait of 0. -/
theorem witness_CloseFiche :
    ((imaged .composing).countImages .awaiting = 0 ∧ ((holding (imaged .composing)).closeFiche 0 .full).queue 0 = [0]) ∧
    ((carrying .composing).countImages .awaiting = 2 ∧
      (((holding (carrying .composing)).closeFiche 0 .split).fiche 0).map (fun x => (x.state, x.cause, x.timer)) =
        some (.closing, some .split, some 10)) ∧
    (((holding { carrying .composing with imageWait := 0 }).closeFiche 0 .host).fiche 0).map
      (fun x => (x.state, x.countImages .missing, x.timer)) = some (.queued, 2, none) := by decide +kernel

/-- O21: no composing fiche; one closed FULL for want of room, or of an index entry; one that carries nothing discarded. -/
theorem witness_PlaceOpens :
    ((laneReady wholeDef).composingContext 0 = none ∧ (laneReady wholeDef).lowestFree = some 0) ∧
    ((keeping (carrying .composing)).composingContext 0 = some 0 ∧ (keeping (carrying .composing)).lowestFree = some 1 ∧
      answerOf (placed (keeping (carrying .composing)) (key6 ++ [0, 36, 1])) = some (.ok,
        key6 ++ [0, 0, 0, 1] ++ [1, 0, 0, 6, 0, 0, 65, 48, 49, 1, 0, 36] ++ [1, 0, 0, 0, 5, 1, 0] ++
          [0, 0, 0, 0, 0] ++ [1, 1, 0, 0, 6])) ∧
    ((keeping { carrying .composing with indexUsed := 48 }).lowestFree = some 1 ∧
      nextWith (fun t => (t.fiche 0).map (·.state)) (placed (keeping { carrying .composing with indexUsed := 48 })
        (key6 ++ [0, 1, 0])) = some (some .closing)) ∧
    ((keeping (newFiche 0 sampleDef 5 none)).composingContext 0 = some 0 ∧
      ((keeping (newFiche 0 sampleDef 5 none)).setContext 0 none).lowestFree = some 0 ∧
      answerOf (placed (keeping (newFiche 0 sampleDef 5 none)) (key6 ++ [0, 36, 1])) = some (.ok,
        key6 ++ [0, 0, 0, 1] ++ [0, 0, 0, 5, 0, 0, 65, 48, 49, 1, 0, 36] ++ [0, 0, 0, 0, 0, 0, 0] ++
          [1, 0, 0, 0, 5] ++ [1, 0, 0, 0, 5])) := by decide +kernel

/-- The sample fiche with cells 0 to 69 taken: a tail of one cell. -/
def nearlyFull : Fiche := { carrying .composing with cells := occupyRun (carrying .composing).cells 5 .single 0 1 70 }

/-- O22: the tail of 71 FREE cells, behind two and three cells taken, and of no whole page behind 70. -/
theorem witness_Tail :
    71 ≤ (newFiche 0 sampleDef 5 none).cells.length ∧
    tailStart (newFiche 0 sampleDef 5 none).cells 71 2 = 0 ∧ tailPages (newFiche 0 sampleDef 5 none).cells 71 2 = 35 ∧
    tailStart (carrying .composing).cells 71 2 = 2 ∧ tailStart crowded.cells 71 2 = 4 ∧
    tailStart crowded.cells 71 1 = 3 ∧ tailPages crowded.cells 71 2 = 33 ∧ tailPages nearlyFull.cells 71 2 = 0 := by
  decide +kernel

/-- O22: page 1 in the tail, page 2 on the fiche opened after it. -/
theorem witness_PlaceSplits :
    ready (holding nearlyFull) .place (request 0x30 (key6 ++ [0, 2, 0])) = true ∧
    tailPages nearlyFull.cells (usableCells .g1 1) 1 = 1 ∧ (holding nearlyFull).lowestFree = some 1 ∧
    (∀ g < 71, runIsFree nearlyFull.cells (usableCells .g1 1) g 2 = false) ∧
    answerOf (placed (holding nearlyFull) (key6 ++ [0, 2, 0])) = some (.ok,
      key6 ++ [0, 0, 0, 2] ++ [0, 0, 0, 5, 0, 70, 70, 49, 49, 1, 0, 1] ++ [1, 0, 0, 6, 0, 0, 65, 48, 49, 2, 0, 1] ++
        [1, 0, 0, 0, 5, 2, 0] ++ [0, 0, 0, 0, 0] ++ [1, 1, 0, 0, 6]) := by decide +kernel

/-- Every context but `n` of them, from the last, holding the sample fiche on lane 0. -/
def crowdedContexts (x : Fiche) (others : FicheState) : State :=
  (List.finRange 8).foldl (fun s c => if c = 0 then s else s.setContext c (some { x with state := others }))
    (holding x)

/-- A fiche of 71 usable cells that carries nothing, on a lane of 72, with every other context FAILED. -/
def emptyBeforeSplit : State :=
  { crowdedContexts (newFiche 0 sampleDef 5 none) .failed with
    laneTable := (laneReady wholeDef).laneTable, directory := [] }

/-- O23: a document that would be split between an empty fiche and another, of which there is none. -/
theorem witness_PlaceSplitsEmpty :
    ready emptyBeforeSplit .place (request 0x30 (key6 ++ [0, 36, 1])) = true ∧ emptyBeforeSplit.lowestFree = none ∧
    emptyBeforeSplit.composingContext 0 = some 0 ∧
    (emptyBeforeSplit.fiche 0).map (fun y => (y.split, y.indexUsed, tailPages y.cells (usableCells y.format y.k) 2)) =
      some (.allow, 0, 35) ∧
    answerOf (placed emptyBeforeSplit (key6 ++ [0, 36, 1])) = some (.noContext, []) := by decide +kernel

/-- O23: no pages, class 16, span 2; an undefined lane; a key held; a full directory; 65 pages, and 36 WIDE pages in 71
cells; and no FREE context, with and without a composing fiche. -/
theorem witness_PlaceRefusals :
    (∀ b ∈ [[0, 0, 0], [16, 1, 0], [0, 1, 2]], ready (holding (carrying .composing)) .place (request 0x30 (key6 ++ b)) = true ∧
      answerOf (placed (holding (carrying .composing)) (key6 ++ b)) = some (.malformed, [])) ∧
    answerOf (placed State.reset (key6 ++ [15, 64, 1])) = some (.noLane, []) ∧
    answerOf (placed (holding (carrying .composing)) (key5 ++ [0, 1, 0])) = some (.duplicate, []) ∧
    answerOf (placed { laneReady sampleDef with directory := List.replicate 1024 sampleRecord } (key6 ++ [0, 1, 0])) =
      some (.directoryFull, []) ∧
    (∀ b ∈ [[0, 65, 0], [0, 36, 1]], answerOf (placed (laneReady sampleDef) (key6 ++ b)) = some (.tooLarge, [])) ∧
    answerOf (placed (crowdedContexts nearlyFull .failed) (key6 ++ [0, 64, 0])) = some (.noContext, []) ∧
    answerOf (placed (crowdedContexts (carrying .failed) .failed) (key6 ++ [0, 1, 0])) = some (.noContext, []) := by
  decide +kernel

/-- The manual's boundaries of a serial position: its last column, its first, and one past the text. -/
theorem test_writeSerial :
    writeSerial [65] 2 1234 = [65, 32, 48, 48, 49, 50, 51, 52] ∧
    (writeSerial (List.replicate 40 65) 39 987654).drop 38 = [65, 57] ∧
    writeSerial [65, 66, 67, 68, 69, 70, 71] 0 999999 = [57, 57, 57, 57, 57, 57, 71] := by decide +kernel

/-- O24: no serial position, and the serial in line 1 and in an empty line 2. -/
theorem witness_TitleLines :
    ({ sampleDef with serialPosition := none } : LaneDef).titleLines 6 = [⟨[65], .normal⟩] ∧
    sampleDef.titleLines 6 = [⟨[65, 32, 48, 48, 48, 48, 48, 54], .normal⟩] ∧
    ({ sampleDef with serialPosition := some ⟨.line2, 0⟩ } : LaneDef).titleLines 6 =
      [⟨[65], .normal⟩, ⟨[48, 48, 48, 48, 48, 54], .normal⟩] := by decide +kernel

def opened (s : State) (b : List Nat) : Host.Outcome State Fault Refusal := exec .openFiche (asking s (request 0x31 b))

/-- O25: lane 4, three lines, 41 characters and size 4 in each line; no lane; a composing fiche; no FREE context; one, two
and no lines. -/
theorem witness_OpenFiche :
    (∀ b ∈ [[4, 0, 0], [0, 3, 0], [0, 1, 41, 0] ++ List.replicate 42 65, [0, 1, 0, 4, 0],
        [0, 2, 0, 0, 41, 0] ++ List.replicate 42 65, [0, 2, 0, 0, 0, 4, 0]],
      ready (laneReady sampleDef) .openFiche (request 0x31 b) = true ∧
      answerOf (opened (laneReady sampleDef) b) = some (.malformed, [])) ∧
    answerOf (opened State.reset [3, 0, 0]) = some (.noLane, []) ∧
    answerOf (opened (holding (carrying .composing)) [0, 0, 0]) = some (.state, []) ∧
    answerOf (opened (crowdedContexts (carrying .failed) .failed) [0, 0, 0]) = some (.noContext, []) ∧
    answerOf (opened (laneReady sampleDef) [0, 0, 255]) = some (.ok, [0, 0, 0, 6, 1, 1, 0, 48, 0, 0, 7, 0, 0, 0]) ∧
    answerOf (opened (laneReady sampleDef) ([0, 1, 40, 3] ++ List.replicate 40 127 ++ [15])) =
      some (.ok, [0, 0, 0, 6, 1, 1, 0, 48, 0, 0, 7, 1, 40, 0]) ∧
    answerOf (opened (laneReady sampleDef) [0, 2, 0, 0, 1, 3, 31, 16]) =
      some (.ok, [0, 0, 0, 6, 1, 1, 0, 48, 0, 0, 7, 1, 1, 1]) ∧
    nextWith (fun t => (t.fiche 0).map fun x => (x.lines, x.spacing))
      (opened (laneReady sampleDef) [0, 2, 2, 1, 65, 31, 1, 3, 127, 16]) =
        some (some ([⟨[65, 63], .wide⟩, ⟨[63], .large⟩], 15)) := by decide +kernel

/-- O25: no FREE context below the one found, none at all, a lane's COMPOSING fiche and another's, a lane defined but
disabled; and bodies whose lengths and sizes are in range at their ends. -/
theorem witness_ContextsAndLanes :
    State.reset.lowestFree = some 0 ∧ (holding (carrying .composing)).lowestFree = some 1 ∧
    (crowdedContexts (carrying .failed) .failed).lowestFree = none ∧
    (holding (carrying .composing)).composingContext 0 = some 0 ∧
    (holding (carrying .composing)).composingContext 1 = none ∧
    (holding (carrying .closing)).composingContext 0 = none ∧
    (laneReady sampleDef).enabledLane 0 = some sampleDef ∧ (laneReady sampleDef).enabledLane 1 = none ∧
    (laneReady { sampleDef with enabled := false }).enabledLane 0 = none ∧
    (∀ b ∈ [[0, 0, 0], [0, 1, 40, 3] ++ List.replicate 40 65 ++ [0],
        [0, 2, 40, 3] ++ List.replicate 40 65 ++ [40, 3] ++ List.replicate 40 65 ++ [0]],
      (carriedTitlesOf (b.map (BitVec.ofNat 8))).isSome = true) := by decide +kernel

/-- The serial is written into the template's line, and 999999 is followed by 0. -/
theorem test_openFiche_serial :
    nextWith (fun t => ((t.fiche 0).map (·.lines), (t.lane 0).nextSerial)) (opened
      { State.reset with laneTable := { State.reset.laneTable with
        lanes := State.reset.laneTable.lanes.set 0 ⟨999999, some sampleDef⟩ } } [0, 0, 0]) =
      some (some [⟨[65, 32, 57, 57, 57, 57, 57, 57], .normal⟩], 0) := by decide +kernel

def readOf (s : State) (b : List Nat) : Host.Outcome State Fault Refusal := exec .readFiche (asking s (request 0x32 b))

/-- O26: context 8, a FREE context, a range that passes cell 71 by one, and the widest range; 256 parts on a context. -/
theorem witness_ReadFiche :
    (∀ b ∈ [[8, 0, 0, 0, 0], [0, 0, 1, 0, 72]], ready (holding (carrying .closing)) .readFiche (request 0x32 b) = true ∧
      answerOf (readOf (holding (carrying .closing)) b) = some (.malformed, [])) ∧
    answerOf (readOf (holding (carrying .closing)) [7, 0, 0, 0, 0]) = some (.ok, [0]) ∧
    (answerOf (readOf (holding (carrying .closing)) [0, 0, 0, 0, 72])).map (fun a => (a.1, a.2.take 5)) =
      some (.ok, [2, 0, 0, 0, 5]) ∧
    (answerOf (readOf (holding { carrying .composing with timer := none }) [0, 0, 1, 0, 2])).map (fun a => a.2.drop 61) =
      some [0, 2, 2, 0, 0, 0, 0, 0, 5, 2, 0, 0, 0, 0, 0, 0, 0, 0] ∧
    nextWith (fun t => t.free) (readOf (holding { carrying .composing with indexUsed := 256 }) [0, 0, 0, 0, 0]) =
      some 1 := by decide +kernel

/-! ## Closing, release and fences -/

def closed (s : State) (b : List Nat) : Host.Outcome State Fault Refusal := exec .close (asking s (request 0x40 b))

/-- O27: lane 4, contexts 8 and 254; nothing open, by lane and by context; frozen; and the four ways a fiche closes. -/
theorem witness_Close :
    (∀ b ∈ [[4, 0], [0, 8], [0, 254]], ready (holding (carrying .composing)) .close (request 0x40 b) = true ∧
      answerOf (closed (holding (carrying .composing)) b) = some (.malformed, [])) ∧
    (∀ b ∈ [[3, 255], [0, 7], [1, 0]], answerOf (closed (holding (carrying .composing)) b) = some (.nothingOpen, [])) ∧
    answerOf (closed (holding (carrying .failed)) [0, 0]) = some (.frozen, [6]) ∧
    answerOf (closed (keeping (newFiche 0 sampleDef 5 none)) [0, 255]) =
      some (.ok, [0, 0, 0, 5, 0, 1, 0, 0, 5, 0, 0, 0, 0, 0, 0, 0]) ∧
    answerOf (closed (holding (imaged .composing)) [0, 0]) =
      some (.ok, [0, 0, 0, 5, 2, 0, 0, 0, 0, 0, 0, 0, 0, 0, 0, 0]) ∧
    answerOf (closed (holding (carrying .composing)) [0, 255]) =
      some (.ok, [0, 0, 0, 5, 1, 0, 0, 0, 0, 1, 0, 2, 10, 0, 0, 0]) ∧
    answerOf (closed (holding { carrying .composing with imageWait := 0 }) [0, 255]) =
      some (.ok, [0, 0, 0, 5, 2, 0, 0, 0, 0, 0, 0, 0, 0, 1, 0, 2]) := by decide +kernel

/-- O28: a CLOSING context gives up its pages; another state, and a FREE context, do not. -/
theorem witness_ImageWaitExpiry :
    nextWith (fun t => ((t.fiche 0).map (·.state), t.queue 0, t.port.flags, t.port.counters.missingPlaceholders))
      (exec (.imageWaitExpiry 0) (holding { carrying .closing with timer := some 1 })) =
      some (some .queued, [0], 0x080004#24, 2) ∧
    nextWith (fun t => (t.fiche 0).map (·.state)) (exec (.imageWaitExpiry 0) (holding (carrying .composing))) =
      some (some .composing) ∧
    nextWith (fun t => t.fiche 7) (exec (.imageWaitExpiry 7) (holding (carrying .composing))) = some none := by
  decide +kernel

def requeued (s : State) (b : List Nat) : Host.Outcome State Fault Refusal := exec .requeue (asking s (request 0x42 b))

/-- O29: context 8, serials 1000000 and FFFFFEh; FREE; not FAILED; another serial; and both ways to name the serial. -/
theorem witness_Requeue :
    (∀ b ∈ [[8, 0, 0, 5], [0, 15, 66, 64], [0, 255, 255, 254]],
      ready (holding (carrying .failed)) .requeue (request 0x42 b) = true ∧
      answerOf (requeued (holding (carrying .failed)) b) = some (.malformed, [])) ∧
    (∀ b ∈ [[7, 0, 0, 0], [0, 15, 66, 63]], answerOf (requeued (holding (carrying .failed)) b) = some (.state, [])) ∧
    answerOf (requeued (holding (carrying .exposed)) [0, 0, 0, 5]) = some (.state, []) ∧
    (∀ b ∈ [[0, 0, 0, 5], [0, 255, 255, 255]],
      answerOf (requeued (holding { carrying .failed with attempts := 3 }) b) = some (.ok, [0, 0, 0, 5, 1])) := by
  decide +kernel

def released (s : State) (b : List Nat) : Host.Outcome State Fault Refusal := exec .release (asking s (request 0x43 b))

/-- O30: malformed as REQUEUE; FREE, COMPOSING, another serial; CLOSING, QUEUED and EXPOSING busy; EXPOSED and FAILED
freed, and a context that carries 256 parts. -/
theorem witness_Release :
    (∀ b ∈ [[8, 0, 0, 5], [0, 15, 66, 64], [0, 255, 255, 254]],
      ready (holding (carrying .exposed)) .release (request 0x43 b) = true ∧
      answerOf (released (holding (carrying .exposed)) b) = some (.malformed, [])) ∧
    answerOf (released (holding (carrying .exposed)) [7, 255, 255, 255]) = some (.state, [0]) ∧
    answerOf (released (holding (carrying .composing)) [0, 255, 255, 255]) = some (.state, [1]) ∧
    answerOf (released (holding (carrying .exposed)) [0, 15, 66, 63]) = some (.state, [5]) ∧
    (∀ x ∈ [FicheState.closing, .queued, .exposing],
      (answerOf (released (holding (carrying x)) [0, 0, 0, 5])).map (·.1) = some .busy) ∧
    answerOf (released (holding (carrying .exposed)) [0, 255, 255, 255]) =
      some (.ok, [0, 0, 0, 5, 5, 1, 0, 1, 0, 0, 0, 0]) ∧
    answerOf (released (holding (imaged .failed)) [0, 0, 0, 5]) = some (.ok, [0, 0, 0, 5, 6, 1, 0, 1, 0, 0, 0, 2]) ∧
    nextWith (fun t => t.free) (released { holding (carrying .exposed) with
      directory := List.replicate 256 sampleRecord } [0, 0, 0, 5]) = some 1 := by decide +kernel

def fenced (s : State) (b : List Nat) : Host.Outcome State Fault Refusal := exec .fence (asking s (request 0x41 b))

def sampleFence : PendingFence := ⟨0x41, 9, 7, [⟨0, 5, none⟩]⟩

def withFences (n : Nat) (s : State) : State := { s with port := { s.port with fences := List.replicate n sampleFence } }

/-- O31: scopes 4 and 254; an empty snapshot; a fifth fence; a fourth one parked without a reply. -/
theorem witness_Fence :
    (∀ n ∈ [4, 254], ready (holding (carrying .queued)) .fence (request 0x41 [7, n]) = true ∧
      answerOf (fenced (holding (carrying .queued)) [7, n]) = some (.malformed, [])) ∧
    (∀ n ∈ [3, 255], answerOf (fenced (holding (carrying .composing)) [7, n]) = some (.ok, [7, 0, 0])) ∧
    answerOf (fenced (withFences 4 (holding (carrying .queued))) [7, 255]) = some (.busy, []) ∧
    nextWith (fun t => (t.port.fences, t.port.waiting, t.port.outbound)) (fenced (withFences 3 (holding (carrying .queued)))
      [7, 0]) = some (List.replicate 4 sampleFence, [], []) := by decide +kernel

/-- The reply of a fence whose one member fails. -/
theorem test_settleFences :
    ((withFences 1 (holding (carrying .failed))).settleFences 0 .notExposed).port.outbound =
      [⟨0x41, 9, .ok, [7, 1, 1, 0, 0, 0, 5, 1]⟩] ∧
    ((withFences 1 (holding (carrying .failed))).settleFences 1 .exposed).port.fences = [sampleFence] := by
  decide +kernel

/-! ## Image Intake and Page Memory -/

def withIntake (s : State) (i : Intake) : State := { s with intake := i }

def headerBytes (key : List Nat) (page depth width height : Nat) : List Byte :=
  (key ++ [page, depth, width / 256, width % 256, height / 256, height % 256]).map (BitVec.ofNat 8)

/-- The state after the twelfth header byte. -/
def headed (s : State) (h : List Byte) : Host.Outcome State Fault Refusal :=
  exec (.imageHeader (h.getD 11 0)) (withIntake s (.ready (h.take 11)))

/-- O32: the first and the eleventh header byte, a byte within a line, a line that is not the last, and bytes to drop;
no byte while the reset line, the abort line or a stall holds the port. -/
theorem witness_ImageBytes :
    (∀ n ∈ [0, 10], nextWith (fun t => t.intake)
      (exec (.imageByteTaken 7) (withIntake State.reset (.ready (List.replicate n 1)))) =
      some (.ready (List.replicate n 1 ++ [7]))) ∧
    nextWith (fun t => t.intake) (exec (.imageByteTaken 7) (withIntake State.reset (.receiving sampleMatched [0] 0 [] []))) =
      some (.receiving sampleMatched [0] 0 [7] []) ∧
    nextWith (fun t => t.intake) (exec (.imageByteTaken 7) (withIntake State.reset (.receiving sampleMatched [0] 0 [1] []))) =
      some (.receiving sampleMatched [0] 1 [] [1, 7]) ∧
    nextWith (fun t => t.intake) (exec (.imageByteTaken 7) (withIntake State.reset (.discarding sampleHeader .late 2))) =
      some (.discarding sampleHeader .late 1) ∧
    nextWith (fun t => t.intake) (exec (.imageByteTaken 7) asserted) = some (.ready []) ∧
    nextWith (fun t => t.intake) (exec (.imageByteTaken 7) { State.reset with lines := ⟨false, true, false⟩ }) =
      some (.ready []) ∧
    nextWith (fun t => t.intake) (exec (.imageByteTaken 7) (withIntake State.reset (.stalled sampleMatched))) =
      some (.stalled sampleMatched) := by decide +kernel

/-- O33: every header field one past its range, an absent key and a page above the count; the two kinds of late; and a
match on a COMPOSING and on a CLOSING context, at the bounds of the fields. -/
theorem witness_ImageHeader :
    (∀ h ∈ [headerBytes key5 0 8 1 1, headerBytes key5 1 0 1 1, headerBytes key5 1 2 1 1, headerBytes key5 1 7 1 1,
        headerBytes key5 1 9 1 1, headerBytes key5 1 8 0 1, headerBytes key5 1 8 8193 1, headerBytes key5 1 8 1 0,
        headerBytes key5 1 8 1 8193, headerBytes key6 1 8 1 1, headerBytes key5 3 8 1 1],
      h.length = 12 ∧ nextWith (fun t => (t.port.flags, t.port.counters.orphanImages))
        (headed (holding (carrying .composing)) h) = some (0x010000#24, 1)) ∧
    nextWith (fun t => t.intake) (headed (holding (carrying .composing)) (headerBytes key5 1 8 0 1)) =
      some (.ready []) ∧
    (∀ s ∈ [holding (carrying .queued), holding (imaged .closing),
        { holding (carrying .composing) with directory := [{ sampleRecord with parts := [⟨0, 5, 0, 2, 1⟩] }] }],
      nextWith (fun t => (t.port.flags, t.port.counters.lateImages, t.intake)) (headed s (headerBytes key5 1 1 9 1)) =
        some (0x020000#24, 1, .discarding ⟨5, 1, 1, 9, 1⟩ .late 2)) ∧
    (∀ s ∈ [holding (carrying .composing), holding (carrying .closing)],
      (nextWith (fun t => t.intake) (headed s (headerBytes key5 2 1 8192 8192))) = some
        (.receiving ⟨⟨5, 2, 1, 8192, 8192⟩, .g1, .single, figuresOf ⟨5, 2, 1, 8192, 8192⟩ .g1 .single⟩ [0] 0 [] [])) := by
  decide +kernel

/-- O33: the fields of twelve header bytes. -/
theorem test_headerOf : headerOf [0, 1, 2, 3, 4, 5, 6, 7, 8, 9, 10, 11] = ⟨0x000102030405#48, 6, 7, 0x0809, 0x0A0B⟩ := by
  decide +kernel

/-- O33: with an empty pool (a state that no run reaches) the matched header stalls. -/
theorem witness_ImageHeaderStalls :
    ({ poolless with directory := [sampleRecord] } : State).freePool.length < Span.single.cells ∧
    ({ poolless with directory := [sampleRecord] } : State).record 5 = some sampleRecord := by
  refine ⟨?_, by decide +kernel⟩
  have : ({ poolless with directory := [sampleRecord] } : State).freePool = [] := poolless_pool
  rw [this]; decide

/-- O33: the first and the last page of each of two parts, and the pages beside them; the cell of a WIDE page. -/
theorem witness_PartOfPage :
    ([0, 1, 2, 3, 4].map (Record.partOf ⟨5, 0, 0, .wide, 3, 0, [⟨0, 5, 4, 1, 2⟩, ⟨1, 6, 0, 3, 1⟩], 0⟩)).map
      (·.map (·.ctx)) = [none, some 0, some 0, some 1, none] ∧
    RecordPart.cellOf ⟨0, 5, 4, 1, 2⟩ .wide 2 = 6 := by decide +kernel

/-- The state before the last byte of a 2 × 2 image for page 1. -/
def lastByte (s : State) : State := withIntake s (.receiving sampleMatched [0] 1 [8] [3, 4])

/-- A part that begins with page 2: page 1 is on no fiche. -/
def laterRecord : Record := { sampleRecord with parts := [⟨0, 5, 0, 2, 1⟩] }

/-- The sample fiche with one cell still awaited, cell 0. -/
def oneAwaited (x : FicheState) : Fiche :=
  { carrying x with cells := attachCells (carrying x).cells 1 [7] false }

/-- O34: an attach on a COMPOSING and on a CLOSING context, the latter complete; an absent key, a page above the count and
another format orphan; a page in no part and a QUEUED context late. -/
theorem witness_ImageEnd :
    nextWith (fun t => ((t.fiche 0).map fun x => (x.state, x.countImages .present, x.buffers), t.intake,
        t.directory.map (·.revision))) (exec (.imageEnd 9) (lastByte (holding (carrying .composing)))) =
      some (some (.composing, 1, [0]), .ready [], [1]) ∧
    nextWith (fun t => ((t.fiche 0).map fun x => (x.state, x.countImages .present), t.queue 0))
      (exec (.imageEnd 9) (lastByte (holding (oneAwaited .closing)))) = some (some (.queued, 2), [0]) ∧
    (∀ s ∈ [{ holding (carrying .composing) with directory := [] },
        { holding (carrying .composing) with directory := [{ sampleRecord with pageCount := 0 }] },
        holding { carrying .composing with format := .g2 }],
      nextWith (fun t => (t.port.flags, t.port.counters.orphanImages)) (exec (.imageEnd 9) (lastByte s)) =
        some (0x010000#24, 1)) ∧
    (∀ s ∈ [{ holding (carrying .composing) with directory := [laterRecord] }, holding (carrying .exposed)],
      nextWith (fun t => (t.port.flags, t.port.counters.lateImages)) (exec (.imageEnd 9) (lastByte s)) =
        some (0x020000#24, 1)) := by decide +kernel

/-- The last spot row of the image, between margins of 255. -/
theorem test_targetRow :
    ((targetRow sampleMatched 1 [8, 9]).drop 1022).take 4 = [255, 8, 9, 255] ∧
    sampleMatched.figures.oy = 767 := by decide +kernel

/-- O35. -/
theorem witness_TransferEnds :
    nextWith (fun t => t.intake) (exec (.discardingEnd 0) (withIntake State.reset (.discarding sampleHeader .late 1))) =
      some (.ready []) ∧
    nextWith (fun t => (t.intake, t.lines.abortLine)) (exec .imageAbort (lastByte State.reset)) =
      some (.ready [], true) ∧
    nextWith (fun t => t.lines.abortLine) (exec .imageAbortRelease { State.reset with lines := ⟨false, true, false⟩ }) =
      some false := by decide +kernel

/-- O36: the figures of the manual's A4 page on G2 and of its wide printout on G4, and their windows; the hypotheses at the
bounds of the fields. -/
theorem test_reductionFigures :
    figuresOf ⟨1, 1, 1, 2480, 3508⟩ .g2 .single = ⟨780, 813, 1151, 361, 0, false⟩ ∧
    (figuresOf ⟨1, 1, 8, 2976, 2200⟩ .g4 .wide).step = 734 ∧ (figuresOf ⟨1, 1, 8, 2976, 2200⟩ .g4 .wide).ow = 1037 ∧
    spotWindow 780 2480 20 = (60, 62) ∧ spotWindow 780 2480 21 = (63, 66) ∧ spotWindow 780 2480 812 = (2474, 2476) ∧
    meanOf 1785 9 = 198 ∧ meanOf 2295 12 = 191 ∧
    (figuresOf ⟨1, 1, 1, 8192, 8192⟩ .g4 .single).cropped = true ∧
    figuresOf ⟨1, 1, 1, 1, 1⟩ .g1 .single = ⟨256, 1, 1, 1023, 767, false⟩ := by decide +kernel

/-- O37: nine 1-bit pixels, the padding bits of the second byte ignored, and two 8-bit pixels. -/
theorem test_grayLine : grayLine 1 9 [0x81, 0x7F] = [255, 0, 0, 0, 0, 0, 0, 255, 0] ∧ grayLine 8 2 [7, 200] = [7, 200] := by
  decide +kernel

/-- O37: line 0 begins and completes spot row 0; in a page of three lines to a row, line 1 adds to it and line 3 begins the
next; a line past the last window adds nothing. -/
theorem witness_ReducedLines :
    (rowOfLine sampleMatched 0 = some 0 ∧ spotWindow 256 2 0 = (0, 0)) ∧
    (rowOfLine ⟨⟨1, 1, 1, 2480, 3508⟩, .g2, .single, figuresOf ⟨1, 1, 1, 2480, 3508⟩ .g2 .single⟩ 3 = some 1) ∧
    (figuresOf ⟨1, 1, 1, 2480, 3508⟩ .g2 .single).oh = 1151 ∧ spotWindow 780 3508 1150 = (3503, 3505) ∧
    (targetRow sampleMatched 0 [8, 9]).length = 2048 ∧ sampleMatched.figures.ow = 2 ∧
    sampleMatched.figures.ox + 2 ≤ 2048 ∧ lineSums sampleMatched.figures 2 [8, 9] = [8, 9] := by decide +kernel

/-- O37: the hypotheses of a written row at the last row of a G1 extent; the margin rows of the two-row page write the spots
and clean the groups of their buffer's extent alone, and leave the rows between the margins. -/
theorem witness_RowsAndMargins :
    (State.reset.memory.wf = true ∧ 1535 < Format.g1.cellHeight ∧
      (List.replicate 2048 (7 : Byte)).length = Format.g1.cellWidth) ∧
    (⟨[(1023, 7#8), (1570816, 8#8), (3145728, 9#8)], [(0, 1#72), (196352, 1#72), (393216, 1#72)],
      [(0, some .g1)]⟩ : Memory).wf = true ∧
    writeTransferMargins sampleMatched [0]
        ⟨[(1023, 7#8), (1570816, 8#8), (3145728, 9#8)], [(0, 1#72), (196352, 1#72), (393216, 1#72)], [(0, some .g1)]⟩ =
      ⟨[(1570816, 8#8), (3145728, 9#8)], [(196352, 1#72), (393216, 1#72)], [(0, some .g1)]⟩ := by decide +kernel

/-- O38: the first and the last bit of Page Memory, and the three conditions of a group. -/
theorem witness_Upsets :
    (State.reset.memory.wf = true ∧
      nextWith (fun t => t.memory.upsets) (exec (.storageUpset 0 0 0 0) State.reset) = some [(0, 1#72)] ∧
      nextWith (fun t => t.memory.upsets) (exec (.storageUpset 4095 1535 255 71) State.reset) =
        some [((4095 * 3145728 + 1535 * 2048 + 2040) / 8, BitVec.twoPow 72 71)]) ∧
    groupCondition 0#72 = .clean ∧ groupCondition (BitVec.twoPow 72 71) = .correctable ∧
    groupCondition 3#72 = .uncorrectable ∧
    (⟨[], [(0, 1#72), (1, 3#72)], []⟩ : Memory).readOutcome .g1 0 = .uncorrectable ∧
    ((⟨[], [(0, 1#72), (1, 3#72)], []⟩ : Memory).writeBack .g1 0).upsets = [(1, 3#72)] := by decide +kernel

/-! ## Exposure Arbiter -/

/-- O39: a body one byte short and one byte long; phases 0 to 7 and the greatest value, of which all above 3 are skips. -/
theorem witness_LoadArbitration :
    answerOf (exec .loadArbitration (asking State.reset (request 0x50 (List.range 31)))) = some (.malformed, []) ∧
    answerOf (exec .loadArbitration (asking State.reset (request 0x50 (List.range 33)))) = some (.malformed, []) ∧
    ready State.reset .loadArbitration (request 0x50 (List.range 31 ++ [255])) = true ∧
    answerOf (exec .loadArbitration (asking State.reset (request 0x50 (List.range 31 ++ [255])))) =
      some (.ok, [0, 1, 1, 1, 1, 28]) := by decide +kernel

/-- The sample fiche queued on lane 0, lamp READY, film 1. -/
def grantable : State :=
  withLamp { (holding (carrying .queued)).setQueue 0 [0] with gate := { State.reset.gate with film := 1 } } .ready

/-- O40: each condition that fails alone; a grant by the table, from a pending table, and by the fallback. -/
theorem witness_GrantDecision :
    (∀ s ∈ [{ grantable with lines := ⟨true, false, false⟩ }, withGate grantable .stopped, withLamp grantable .standby,
        { grantable with gate := { grantable.gate with film := 0 } }, grantable.setQueue 0 []],
      nextWith (fun t => t.gate.state) (exec .grantDecision s) = some s.gate.state) ∧
    nextWith (fun t => (t.gate.state, t.gate.film, t.arbiter.pointer, t.arbiter.lastLane, t.queue 0))
      (exec .grantDecision grantable) = some (.advance 0, 0, 1, 0, []) ∧
    nextWith (fun t => (t.gate.state, t.arbiter.pointer, t.arbiter.pendingFlag)) (exec .grantDecision
      { grantable with arbiter := { State.reset.arbiter with
        pendingTable := Vector.ofFn fun p => if p = 31 then 0 else 255, pendingFlag := true, pointer := 7 } }) =
      some (.advance 0, 0, false) ∧
    nextWith (fun t => (t.gate.state, t.arbiter.pointer, t.arbiter.lastLane)) (exec .grantDecision
      { grantable with arbiter := { State.reset.arbiter with active := Vector.replicate 32 255, pointer := 31 } }) =
      some (.advance 0, 31, 0) := by decide +kernel

/-! ## Exposure Gate -/

/-- O41: the advance of the sample fiche, and a step done that is not due. -/
theorem witness_AdvanceDone :
    nextWith (fun t => (t.gate.state, (t.fiche 0).map (·.titleClipped)))
      (exec .advanceDone (withGate (holding (carrying .exposing)) (.advance 0))) = some (.title 0, some false) ∧
    nextWith (fun t => t.gate.state) (exec .advanceDone (withGate (holding (carrying .exposing)) (.title 0))) =
      some (.title 0) := by decide +kernel

def sizedLine (n : Nat) (size : TitleSize) : TitleLine := ⟨List.replicate n 65, size⟩

/-- The manual's four title strips. -/
theorem test_titleClips :
    titleClips .g3 [sizedLine 21 .large, sizedLine 12 .normal] 15 = true ∧
    titleClips .g3 [sizedLine 21 .wide, sizedLine 12 .normal] 15 = false ∧
    titleClips .g2 [sizedLine 40 .large, sizedLine 8 .normal] 2 = true ∧
    titleClips .g1 [sizedLine 40 .tall, sizedLine 38 .wide] 0 = false := by decide +kernel

/-- The sample fiche under exposure, its cell 0 in this image state with this buffer. -/
def showing (i : ImageState) (b : Option Nat) (gain bias : Nat) : Fiche :=
  { carrying .exposing with
    gain := gain, bias := bias
    cells := (carrying .exposing).cells.map (Cell.modify fun o => { o with image := i, buffer := b }) }

/-- The gate at the end of the title, with upsets in Page Memory. -/
def atTitle (x : Fiche) (upsets : List (Nat × BitVec 72)) : State :=
  withGate { holding x with memory := ⟨[], upsets, [(0, some .g1)]⟩ } (.title 0)

/-- What the first cell shows, whether it is saturated or DAMAGED, and the counters. -/
def shownAt (s : State) : Option ((GateState × Option Picture) × Option (Option (ImageState × Bool)) × Counters) :=
  nextWith (fun t => ((t.gate.state, t.gate.step.bind fun k => match k with
      | .expose _ _ p _ => some p
      | .advance | .cut | .spoilCut => none),
    (t.fiche 0).map (fun x => x.cells.head?.bind fun e => e.entry.map fun o => (o.image, o.saturated)), t.port.counters))
    (exec .titleDone s)

/-- O42: a MISSING page; a PRESENT page read clean, corrected with clamped spots, and uncorrectable; a DAMAGED page read
uncorrectable and clean. -/
theorem witness_ReachedCell :
    shownAt (atTitle (showing .missing none 1024 0) []) = some ((.cells 0 0, some (.placeholder .g1
      (asciiText "PAGE NOT RECEIVED") (asciiText "000000000000005 P01"))), some (some (.missing, false)), Counters.zero) ∧
    shownAt (atTitle (showing .present (some 0) 1024 0) []) = some ((.cells 0 0, some (.page .g1 [])),
      some (some (.present, false)), Counters.zero) ∧
    shownAt (atTitle (showing .present (some 0) 4095 200) [(0, 1#72)]) = some ((.cells 0 0, some (.page .g1 [])),
      some (some (.present, true)), ⟨1, 0, 0, 0, 0, 0, 1⟩) ∧
    shownAt (atTitle (showing .present (some 0) 1024 0) [(0, 3#72)]) = some ((.cells 0 0, some (.placeholder .g1
      (asciiText "PAGE DAMAGED") (asciiText "000000000000005 P01"))), some (some (.damaged, false)),
      ⟨0, 1, 0, 0, 0, 0, 0⟩) ∧
    shownAt (atTitle (showing .damaged (some 0) 1024 0) [(0, 3#72)]) = some ((.cells 0 0, some (.placeholder .g1
      (asciiText "PAGE DAMAGED") (asciiText "000000000000005 P01"))), some (some (.damaged, false)),
      ⟨0, 1, 0, 0, 0, 0, 0⟩) ∧
    shownAt (atTitle (showing .damaged (some 0) 1024 0) [(0, 1#72)]) = some ((.cells 0 0, some (.placeholder .g1
      (asciiText "PAGE DAMAGED") (asciiText "000000000000005 P01"))), some (some (.damaged, false)),
      ⟨1, 0, 0, 0, 0, 0, 0⟩) := by
  refine ⟨?_, ?_, ?_, ?_, ?_, ?_⟩ <;> decide +kernel

/-- O42: line 2 of a placeholder of each half, and the groups that reads of buffers 0 and 1 find. -/
theorem witness_PlaceholderAndGroups :
    (∀ e ∈ [(Half.whole, "000000000000005 P64"), (.left, "000000000000005 P64 L"), (.right, "000000000000005 P64 R")],
      placeholderLine2 ⟨5, 64, e.1, .missing, none, false, false⟩ = asciiText e.2) ∧
    ∃ m : Memory, m = ⟨[], [(0, 1#72), (1, 3#72), (393216, 1#72)], []⟩ ∧ m.wf = true ∧
      m.countGroups .g1 0 .correctable = 1 ∧ m.countGroups .g1 0 .uncorrectable = 1 ∧
      m.countGroups .g1 1 .uncorrectable = 0 := by
  refine ⟨by decide +kernel, _, rfl, ?_⟩
  decide +kernel

/-- O42, through CELL_DONE: the next cell is cell 1. -/
theorem witness_ReachedByCellDone :
    nextWith (fun t => (t.gate.state, (t.fiche 0).map (·.cellsDone)))
      (exec .cellDone (withGate (holding (imaged .exposing)) (.cells 0 0))) = some (.cells 0 1, some 1) := by
  decide +kernel

/-- O43: behind cell 1 no cell is OCCUPIED. -/
theorem witness_PagesFinished (j : Nat) (o : Occupied) (hj : 2 ≤ j) :
    (carrying .exposing).cells[j]? ≠ some (.occupied o) := by
  intro h
  have all : ((carrying .exposing).cells.drop 2).all (fun e => e.entry.isNone) = true := by decide +kernel
  have : ((carrying .exposing).cells.drop 2)[j - 2]? = some (.occupied o) := by
    rw [List.getElem?_drop, ← h]; congr 1; omega
  have := List.all_eq_true.1 all _ (List.mem_of_getElem? this)
  simp [Cell.entry] at this

/-- O43: the printed addresses of the manual's table. -/
theorem test_printedCell :
    ∀ e ∈ [(Format.g1, 0, "A01"), (.g1, 71, "F12"), (.g2, 37, "C06"), (.g3, 199, "J20"), (.g4, 300, "M13"),
      (.g4, 359, "O24")], printedCell e.1 e.2.1 = asciiText e.2.2 := by decide +kernel

/-- O43: the index follows the last page cell, or the cut where k is 0; the index cell before the last, and the last. -/
theorem witness_Index :
    nextWith (fun t => t.gate.state) (exec .cellDone (withGate (holding (imaged .exposing)) (.cells 0 1))) =
      some (.index 0 71 [asciiText "000000000000005 A01 02  "]) ∧
    nextWith (fun t => t.gate.state) (exec .cellDone (withGate (holding { imaged .exposing with k := 0 }) (.cells 0 1))) =
      some (.cut 0) ∧
    nextWith (fun t => t.gate.state) (exec .indexCellDone (withGate (holding (imaged .exposing)) (.index 0 70 []))) =
      some (.index 0 71 []) ∧
    nextWith (fun t => t.gate.state) (exec .indexCellDone (withGate (holding (imaged .exposing)) (.index 0 71 []))) =
      some (.cut 0) := by decide +kernel

/-- O44: the cut of the sample fiche, a spoil cut, and neither when no cut is in flight. -/
theorem witness_Cut :
    nextWith (fun t => ((t.fiche 0).map fun x => (x.state, x.buffers), t.gate.state, t.port.flags))
      (exec .cutCompletion (withGate (holding (imaged .exposing)) (.cut 0))) =
      some (some (.exposed, []), .idle, 1#24) ∧
    nextWith (fun t => (t.gate.state, t.gate.standby)) (exec .spoilCompletion (withLamp (withGate State.reset .spoil) .ready)) =
      some (.idle, some 5400) ∧
    nextWith (fun t => t.gate.state) (exec .cutCompletion (withGate State.reset .spoil)) = some .spoil ∧
    nextWith (fun t => t.gate.state) (exec .spoilCompletion (withGate (holding (imaged .exposing)) (.cut 0))) =
      some (.cut 0) := by decide +kernel

/-- O45: from IDLE, SPOIL and STOPPED; an exposure interrupted for the second and for the third time. -/
theorem witness_JamAndDoorOpen :
    (∀ g ∈ [GateState.idle, .spoil, .stopped],
      nextWith (fun t => (t.gate.state, t.gate.film, t.port.flags)) (exec .jam (withGate grantable g)) =
        some (.stopped, 1, 0x100000#24) ∧
      nextWith (fun t => (t.gate.state, t.gate.film, t.port.flags)) (exec .doorOpen (withGate grantable g)) =
        some (.stopped, 0, 0x180000#24)) ∧
    (∀ g ∈ [GateState.advance 0, .title 0, .cells 0 1, .index 0 71 [], .cut 0],
      nextWith (fun t => ((t.fiche 0).map fun x => (x.state, x.attempts), t.queue 0, t.port.counters.spoiledSheets))
        (exec .jam (withGate (holding { carrying .exposing with attempts := 1 }) g)) =
        some (some (.queued, 2), [0], 1)) ∧
    nextWith (fun t => ((t.fiche 0).map fun x => (x.state, x.attempts), t.queue 0, t.port.flags))
      (exec .jam (withGate (holding { carrying .exposing with attempts := 2 }) (.title 0))) =
      some (some (.failed, 3), [], 0x100002#24) := by decide +kernel

/-- O45, O49: while the reset line is asserted the gate's inputs change nothing. -/
theorem witness_InputsInReset :
    (∀ c ∈ [Instr.jam, .doorOpen], nextWith (fun t => (t.gate.state, t.gate.film, t.port.flags)) (exec c
      { grantable with lines := asserted.lines }) = some (grantable.gate.state, grantable.gate.film, grantable.port.flags)) ∧
    (∀ c ∈ [Instr.lampStable, .lampFault], nextWith (fun t => (t.gate.lamp, t.port.flags)) (exec c
      (withLamp asserted .warming)) = some (.warming, 0#24)) := by decide +kernel

/-- O46: curves 3 and 4, entries of 65535; SET FILM outside IDLE and STOPPED, of 0 and of 65535. -/
theorem witness_CurvesAndFilm :
    (answerOf (exec .loadCurve (asking State.reset (request 0x60 (4 :: List.replicate 34 0)))) = some (.malformed, []) ∧
      ready State.reset .loadCurve (request 0x60 (4 :: List.replicate 34 0)) = true ∧
      answerOf (exec .loadCurve (asking State.reset (request 0x60 (3 :: List.replicate 34 255)))) =
        some (.ok, [3, 17, 1]) ∧
      nextWith (fun t => ((t.gate.curves.get 3).pendingFlag, (t.gate.curves.get 3).active.get 16,
        (t.gate.curves.get 3).pendingCopy.get 16)) (exec .loadCurve (asking (withGate State.reset .spoil)
        (request 0x60 (3 :: List.replicate 34 255)))) = some (true, 4080, 4095)) ∧
    (answerOf (exec .setFilm (asking (withGate State.reset .spoil) (request 0x61 [0, 1]))) = some (.busy, []) ∧
      ready State.reset .setFilm (request 0x61 [255, 255]) = true ∧
      answerOf (exec .setFilm (asking State.reset (request 0x61 [255, 255]))) = some (.ok, [15, 255, 1, 0]) ∧
      answerOf (exec .setFilm (asking (withGate State.reset .stopped) (request 0x61 [0, 0]))) = some (.ok, [0, 0, 0, 7]) ∧
      answerOf (exec .setFilm (asking (withGate State.reset .stopped) (request 0x61 [0, 1]))) =
        some (.ok, [0, 1, 0, 0])) := by decide +kernel

/-- O47: the manual's worked drive values, and a descending curve, whose quotient is truncated toward zero. -/
theorem test_driveValues :
    (∀ e ∈ [(Polarity.negative, 250, 6076), (.positive, 250, 218), (.negative, 0, 100), (.negative, 255, 6196)],
      driveValue ⟨e.1, Curve.initial.active, 1536, 100⟩ e.2.1 = e.2.2) ∧
    (driveValue ⟨.negative, Curve.initial.active, 4095, 100⟩ 255 = 16352 ∧
      clamps ⟨.negative, Curve.initial.active, 4095, 100⟩ 255 = false) ∧
    (driveValue ⟨.negative, Curve.initial.active, 4095, 200⟩ 255 = 16383 ∧
      clamps ⟨.negative, Curve.initial.active, 4095, 200⟩ 255 = true) ∧
    interpolate (Vector.ofFn fun i => 16 - i.val) 1 = 16 := by decide +kernel

/-- O47: the hypotheses of the gray values: a drawn space, the dot sizes, and spots of the last row and column. -/
theorem witness_GrayValues :
    textGray [32, 32] 0 0 1 1 15 11 = 255 ∧ glyphGray 31 7 11 = glyphGray 63 7 11 ∧
    (∀ e ∈ [(TitleSize.normal, (40, 40)), (.wide, (80, 40)), (.tall, (40, 80)), (.large, (80, 80))],
      (e.1.dotWidth, e.1.dotHeight) = e.2) ∧
    (Picture.index .g4 [[]]).gray 0 31 = 255 ∧ (Picture.index .g4 [[]]).gray 0 32 = 255 ∧
    (Picture.placeholder .g1 [] []).gray 0 775 = 255 ∧ (Picture.placeholder .g1 [] []).gray 0 776 = 255 ∧
    ((Picture.title .g1 [] 0).width, (Picture.title .g1 [] 0).height) = (Format.g1.stripWidth, 1440) := by decide +kernel

/-- O47: the last spot of a G4 page, in buffer 1. -/
theorem witness_PageGray :
    ∃ m : Memory, m = ⟨[(3145728 + 767 * 2048 + 1023, 7#8)], [], []⟩ ∧ m.wf = true ∧
      (Picture.page .g4 (m.content .g4 1)).gray 1023 767 = 7 ∧ (Picture.page .g4 (m.content .g4 1)).gray 1022 767 = 255 := by
  refine ⟨_, rfl, ?_⟩
  decide +kernel

/-! ## The lamp -/

def lampAsk (c : Instr) (s : State) (n : Nat) : Option (Completion × List Nat) :=
  answerOf (exec c (asking s (request 0x63 [n])))

/-- O48: action 3; ON, OFF and CLEAR in each lamp state; OFF while the gate is busy; the standby periods 0 and 255. -/
theorem witness_LampRequests :
    (ready State.reset .lampOn (request 0x63 [3]) = true ∧ ready State.reset .lampOn (request 0x63 [0]) = true ∧
      ready State.reset .lampOff (request 0x63 [1]) = true ∧ ready State.reset .lampClear (request 0x63 [2]) = true) ∧
    lampAsk .lampOn State.reset 3 = some (.malformed, [0]) ∧
    (lampAsk .lampOn (withLamp State.reset .off) 0 = some (.ok, [0, 1]) ∧
      lampAsk .lampOn (withLamp State.reset .standby) 0 = some (.ok, [3, 1]) ∧
      lampAsk .lampOn (withLamp State.reset .warming) 0 = some (.ok, [1, 1]) ∧
      lampAsk .lampOn (withLamp State.reset .ready) 0 = some (.ok, [2, 2]) ∧
      lampAsk .lampOn (withLamp State.reset .fault) 0 = some (.state, [4])) ∧
    (lampAsk .lampOff (withLamp State.reset .fault) 1 = some (.state, [4]) ∧
      lampAsk .lampOff (withGate (withLamp State.reset .ready) .spoil) 1 = some (.busy, [2]) ∧
      lampAsk .lampOff (withGate (withLamp State.reset .ready) .stopped) 1 = some (.ok, [2, 0])) ∧
    (lampAsk .lampClear (withLamp State.reset .standby) 2 = some (.state, [3]) ∧
      lampAsk .lampClear (withLamp State.reset .fault) 2 = some (.ok, [4, 0])) ∧
    (ready State.reset .setStandby (request 0x62 [0]) = true ∧
      answerOf (exec .setStandby (asking State.reset (request 0x62 [0]))) = some (.ok, [0, 90]) ∧
      answerOf (exec .setStandby (asking State.reset (request 0x62 [255]))) = some (.ok, [255, 255])) := by
  refine ⟨?_, ?_, ?_, ?_, ?_, ?_⟩ <;> decide +kernel

/-- O49: each event in the lamp state it asks for, and in another. -/
theorem witness_LampEvents :
    (nextWith (fun t => (t.gate.lamp, t.gate.standby)) (exec .lampStable (withLamp State.reset .warming)) =
        some (.ready, some 5400) ∧
      nextWith (fun t => t.gate.lamp) (exec .lampStable State.reset) = some .off) ∧
    (nextWith (fun t => (t.gate.lamp, t.port.flags)) (exec .warmUpExpiry (withLamp State.reset .warming)) =
        some (.fault, 0x200000#24) ∧
      nextWith (fun t => t.gate.lamp) (exec .warmUpExpiry State.reset) = some .off) ∧
    (nextWith (fun t => t.gate.lamp) (exec .standbyExpiry
        { State.reset with gate := { State.reset.gate with lamp := .ready, standby := some 1 } }) = some .standby ∧
      nextWith (fun t => t.gate.lamp) (exec .standbyExpiry State.reset) = some .off) ∧
    (∀ l ∈ [LampState.warming, .ready, .standby, .fault],
      nextWith (fun t => (t.gate.lamp, t.port.flags)) (exec .lampFault (withLamp State.reset l)) =
        some (.fault, 0x200000#24)) ∧
    nextWith (fun t => (t.gate.lamp, t.port.flags)) (exec .lampFault State.reset) = some (.off, 0#24) ∧
    (∀ g ∈ [GateState.advance 0, .title 0, .cells 0 1, .index 0 71 [], .cut 0],
      nextWith (fun t => (t.gate.lamp, t.gate.state, (t.fiche 0).map fun x => (x.state, x.attempts), t.queue 0))
        (exec .lampFault (withLamp (withGate (holding (carrying .exposing)) g) .ready)) =
        some (.fault, .spoil, some (.queued, 1), [0])) := by
  refine ⟨?_, ?_, ?_, ?_, ?_, ?_⟩ <;> decide +kernel

/-! ## Request Link -/

/-- O50: the report after power-on: 239 bytes, the free pool 4096. -/
theorem witness_ReadStatus :
    ready State.reset .readStatus (request 0x70 []) = true ∧ (∀ l, (State.reset.queue l).length ≤ 8) ∧
    (answerOf (exec .readStatus (asking State.reset (request 0x70 [])))).map (fun a => (a.1, a.2.length, a.2.take 3)) =
      some (.ok, 239, [1, 0, 0]) := by decide +kernel

/-- O50: the transfer items in each state of Image Intake; five whole lines of two bytes dropped of the last. -/
theorem witness_ReadStatusIntake :
    ∀ e ∈ [(Intake.ready [1, 2], [0, 2] ++ List.replicate 12 0 ++ [0, 0, 0, 0]),
        (.stalled sampleMatched, [1, 0, 1] ++ List.replicate 5 0 ++ [5, 1, 0, 2, 0, 2, 1, 0, 0, 0]),
        (.receiving sampleMatched [0] 1 [] [], [2, 0, 1] ++ List.replicate 5 0 ++ [5, 1, 0, 2, 0, 2, 1, 0, 1, 1]),
        (.discarding ⟨5, 1, 1, 9, 300⟩ .orphan 589, [3, 0, 1] ++ List.replicate 5 0 ++ [5, 1, 0, 9, 1, 44, 2, 0, 5, 0]),
        (.discarding ⟨5, 1, 1, 9, 300⟩ .late 600, [3, 0, 1] ++ List.replicate 5 0 ++ [5, 1, 0, 9, 1, 44, 3, 0, 0, 0])],
      (answerOf (exec .readStatus (asking (withIntake State.reset e.1) (request 0x70 [])))).map
        (fun a => (a.2.drop 161).take 18) = some e.2 := by decide +kernel

/-- O51: bit 22 and bit 23 are refused, every other bit is cleared or enabled; the counters, read and cleared. -/
theorem witness_Attention :
    (∀ b ∈ [[64, 0, 0], [128, 0, 0]],
      ready State.reset .readAttention (request 0x71 b) = true ∧ ready State.reset .setAttentionMask (request 0x72 b) = true ∧
      answerOf (exec .readAttention (asking State.reset (request 0x71 b))) = some (.malformed, []) ∧
      answerOf (exec .setAttentionMask (asking State.reset (request 0x72 b))) = some (.malformed, [])) ∧
    answerOf (exec .readAttention (asking (State.reset.setFlag 21) (request 0x71 [63, 255, 255]))) =
      some (.ok, [32, 0, 0, 63, 255, 255, 0, 0, 0]) ∧
    answerOf (exec .setAttentionMask (asking State.reset (request 0x72 [0, 0, 1]))) =
      some (.ok, [63, 255, 255, 0, 0, 1, 0, 0, 0]) ∧
    (State.reset.setFlag 21).attentionLine = true ∧ State.reset.attentionLine = false ∧
    (asserted.setFlag 21).attentionLine = false ∧
    (ready State.reset .readCounters (request 0x73 [2]) = true ∧
      answerOf (exec .readCounters (asking State.reset (request 0x73 [2]))) = some (.malformed, []) ∧
      answerOf (exec .readCounters (asking { State.reset with port := { State.reset.port with
        counters := ⟨1, 2, 3, 4, 5, 6, 65535⟩ } } (request 0x73 [0]))) =
        some (.ok, [0, 1, 0, 2, 0, 3, 0, 4, 0, 5, 0, 6, 255, 255, 0]) ∧
      nextWith (fun t => t.port.counters) (exec .readCounters (asking { State.reset with port := { State.reset.port with
        counters := ⟨1, 2, 3, 4, 5, 6, 65535⟩ } } (request 0x73 [1]))) = some Counters.zero) := by decide +kernel

/-- O52: at rest, and during an exposure with a fence pending and a transfer in motion. -/
theorem witness_SoftReset :
    ready State.reset .reset (request 0x7F []) = true ∧
    answerOf (exec .reset (asking State.reset (request 0x7F []))) = some (.ok, [0, 0, 0, 0]) ∧
    nextWith (fun t => (t.port.outbound.map fun r => (r.completion, r.body), (t.fiche 0).map (·.state), t.gate.state, t.queue 0))
      (exec .reset (asking (withFences 1 (withIntake (withGate (holding (carrying .exposing)) (.cut 0)) (.ready [1])))
        (request 0x7F []))) =
      some ([(.aborted, [7, 1, 0]), (.ok, [1, 1, 1, 0])], some .queued, .spoil, [0]) := by decide +kernel

/-- O53: a LAMP refused by its length, and one cut to three bytes, give the lamp state; the body lengths that an OPEN FICHE
asks for, with the byte that gives them and without. -/
theorem witness_FramingOfLamp :
    answerOf (exec .lampOn (asking (withLamp State.reset .ready) (request 0x63 [0, 0]))) = some (.malformed, [2]) ∧
    answerOf (exec .lampOn (asking (withLamp State.reset .fault) ⟨[0x63, 9, 0], false⟩)) = some (.malformed, [4]) ∧
    rowOfCode 0x7E = .unknown ∧
    (expectedLength .openFiche [0] = none ∧ expectedLength .openFiche [0, 1] = none ∧
      expectedLength .openFiche [0, 2, 1, 0, 65] = none ∧ expectedLength .openFiche [0, 2, 1, 0, 65, 3] = some 11 ∧
      expectedLength .openFiche [0, 3] = some 2) := by decide +kernel

/-- O53: a short frame, an over-long one, a length byte that disagrees, a body of another length, a title length that
points past the body, and an unknown code. -/
theorem witness_Framing :
    (⟨[0x70, 9, 0], false⟩ : Frame).framingRefusal = some .malformed ∧
    (⟨[0x70, 9, 0, 0], true⟩ : Frame).framingRefusal = some .malformed ∧
    (⟨[0x70, 9, 0, 1], false⟩ : Frame).framingRefusal = some .malformed ∧
    (request 0x70 [0]).framingRefusal = some .malformed ∧ (request 0x31 [0, 2, 40]).framingRefusal = some .malformed ∧
    (request 0x74 []).framingRefusal = some .unknown ∧ (request 0x70 []).framingRefusal = none ∧
    answerOf (exec .readStatus (asking State.reset (request 0x70 [0]))) = some (.malformed, []) ∧
    nextWith (fun t => t.port.waiting) (exec .lookup (asking State.reset (request 0x70 []))) = some [request 0x70 []] := by
  decide +kernel

/-- O53: a request that waits while the reset line is asserted stays, whatever its row. -/
theorem witness_NoRequestInReset :
    asserted.lines.resetLine = true ∧
    nextWith (fun t => (t.port.waiting, t.port.outbound)) (exec .readStatus (asking asserted (request 0x70 []))) =
      some ([request 0x70 []], []) ∧
    (request 0x63 [1]).row = .lampOff ∧ (request 0x63 [2]).row = .lampClear ∧ (request 0x63 [3]).row = .lampOn ∧
    (request 0x63 [1, 0]).row = .lampOn := by decide +kernel

/-- O54: an unknown code; a frame of 132 bytes and of 133; the sixteenth request taken, the next refused, and the ninth
refusal counted; a stale select; and a reply sent. -/
theorem witness_FramesAndReplies :
    answerOf (exec .unknownRequest (asking State.reset (request 0x74 [1]))) = some (.unknown, []) ∧
    (∀ e ∈ [(132, false), (133, true)], nextWith (fun t => t.port.waiting)
      (exec (.frameArrival (List.replicate e.1 1)) State.reset) = some [⟨List.replicate 132 1, e.2⟩]) ∧
    nextWith (fun t => t.port.waiting.length) (exec (.frameArrival [1]) { State.reset with port := { State.reset.port with
      waiting := List.replicate 15 (request 0x70 []) } }) = some 16 ∧
    nextWith (fun t => (t.port.outbound.map fun r => (r.completion, r.body), t.port.dropped)) (exec (.frameArrival [1])
      { State.reset with port := { State.reset.port with waiting := List.replicate 16 (request 0x70 []), dropped := 3 } }) =
      some ([(.queueFull, [3])], 0) ∧
    nextWith (fun t => (t.port.outbound.length, t.port.dropped)) (exec (.frameArrival [1])
      { State.reset with port := { State.reset.port with
        waiting := List.replicate 16 (request 0x70 []), outbound := List.replicate 8 ⟨1, 0, .queueFull, [0]⟩
        dropped := 255 } }) = some (8, 255) ∧
    nextWith (fun t => (t.port.waiting, t.lines)) (exec (.frameArrival [1]) { State.reset with
      lines := ⟨false, false, true⟩ }) = some ([], ⟨false, false, false⟩) ∧
    nextWith (fun t => t.port.waiting) (exec (.frameArrival []) State.reset) = some [] ∧
    nextWith (fun t => t.port.waiting) (exec (.frameArrival [1]) asserted) = some [] ∧
    nextWith (fun t => t.port.outbound) (exec .sendCompletion { State.reset with port := { State.reset.port with
      outbound := [⟨1, 0, .ok, []⟩] } }) = some [] ∧
    nextWith (fun t => t.port.outbound) (exec .sendCompletion { asserted with port := { State.reset.port with
      outbound := [⟨1, 0, .ok, []⟩] } }) = some [⟨1, 0, .ok, []⟩] := by decide +kernel

/-! ## Time and invariants -/

/-- With no command waiting a second passes; a timer stops at 1 until its expiry is taken. -/
theorem test_second :
    nextWith (fun t => (t.gate.warmUp, t.gate.standby, (t.fiche 0).map (·.timer))) (step
      { holding { carrying .closing with timer := some 2 } with
        gate := { State.reset.gate with warmUp := some 120, standby := some 1 } }) =
      some (some 119, some 1, some (some 1)) := by decide +kernel

/-- O55 to O59: a state with work in it that meets every invariant, and from which a step goes on; and the fields on which the
invariants of a composing state rest. -/
theorem witness_Invariants :
    grantable.memory.wf = true ∧ grantable.DirectoryOrdered ∧ grantable.LinkInBounds ∧
    grantable.port.reservedBitsClear ∧ grantable.port.counters.inRange ∧ grantable.laneTable.classMap.get 0 = 0 ∧
    (∀ l, (grantable.lane l).nextSerial ≤ 999999) ∧ grantable.gate.film ≤ 4095 ∧ grantable.heldBuffers.Nodup ∧
    (∀ l, (grantable.queue l).Nodup) ∧ grantable.gate.state.underExposure = none ∧
    (∀ c, grantable.fiche c ≠ none → c = 0) ∧
    (nextWith (fun t => t.gate.state) (step { grantable with pending := [.grantDecision] }) = some (.advance 0)) ∧
    (∀ c, (holding (carrying .composing)).fiche c ≠ none → c = 0) ∧
    (∀ c, grantable.partsOn c = ((grantable.fiche c).map (·.indexUsed)).getD 0) := by
  unfold State.DirectoryOrdered State.LinkInBounds Port.reservedBitsClear Counters.inRange; decide +kernel

/-- O56: the fields of every fiche of that state. -/
theorem witness_FieldsInRange : grantable.FieldsInRange := by
  have only : ∀ c, grantable.fiche c ≠ none → c = 0 := witness_Invariants.2.2.2.2.2.2.2.2.2.2.2.1
  have here : (grantable.fiche 0).map (·.serial) = some 5 := by decide +kernel
  refine ⟨by decide +kernel, by decide +kernel, fun c f h => ?_, ?_, ?_, by decide +kernel⟩
  · have := only c (by simp [h])
    subst this
    simp only [h, Option.map_some, Option.some.injEq] at here
    omega
  · unfold Port.reservedBitsClear; decide +kernel
  · unfold Counters.inRange; decide +kernel

/-- O57: and its index entries agree. -/
theorem witness_IndexEntriesAgree : grantable.IndexEntriesAgree := by
  have only : ∀ c, grantable.fiche c ≠ none → c = 0 := witness_Invariants.2.2.2.2.2.2.2.2.2.2.2.1
  have here : (grantable.fiche 0).map (fun f => decide (f.indexUsed ≤ indexCapacity f.format f.k)) = some true := by
    decide +kernel
  refine ⟨witness_Invariants.2.2.2.2.2.2.2.2.2.2.2.2.2.2, fun c f h _ => ?_⟩
  have := only c (by simp [h])
  subst this
  simpa [h] using here

/-- O59: and a state with a composing context composes once. -/
theorem witness_ComposesOnce : (holding (carrying .composing)).ComposesOnce := by
  have only : ∀ c, (holding (carrying .composing)).fiche c ≠ none → c = 0 :=
    witness_Invariants.2.2.2.2.2.2.2.2.2.2.2.2.2.1
  intro c d f g hf hg _ _ _
  rw [only c (by simp [hf]), only d (by simp [hg])]

/-- O59: and its queues and gate agree. -/
theorem witness_QueuesAndGateAgree : grantable.QueuesAndGateAgree := by
  have only : ∀ c, grantable.fiche c ≠ none → c = 0 := witness_Invariants.2.2.2.2.2.2.2.2.2.2.2.1
  have here : (grantable.fiche 0).map (fun f => (f.state, f.lane, f.attempts)) = some (.queued, 0, 0) := by decide +kernel
  have find : ∀ c f, grantable.fiche c = some f → c = 0 ∧ f.state = .queued ∧ f.lane = 0 ∧ f.attempts = 0 := by
    intro c f h
    have := only c (by simp [h])
    subst this
    simp only [h, Option.map_some, Option.some.injEq, Prod.mk.injEq] at here
    exact ⟨rfl, here⟩
  have queues : ∀ l, grantable.queue l = if l = 0 then [0] else [] := by decide +kernel
  obtain ⟨x, hx⟩ : ∃ x, grantable.fiche 0 = some x := by
    cases h : grantable.fiche 0 with
    | none => simp [h] at here
    | some x => exact ⟨x, rfl⟩
  refine ⟨fun l c => ?_, by decide +kernel, fun c => ?_, fun c f h => ?_⟩
  · rw [queues]
    constructor
    · intro h
      split at h
      · simp only [List.mem_singleton] at h
        subst h
        exact ⟨x, hx, (find 0 x hx).2.1, by rw [(find 0 x hx).2.2.1]; simp_all⟩
      · simp at h
    · rintro ⟨f, hf, _, hl⟩
      obtain ⟨hc, _, hl', _⟩ := find c f hf
      subst hc
      rw [hl'] at hl
      simp [← hl]
  · have : grantable.gate.state.underExposure = none := by decide +kernel
    rw [this]
    constructor
    · intro h; simp at h
    · rintro ⟨f, hf, hs⟩
      rw [(find c f hf).2.1] at hs
      simp at hs
  · obtain ⟨_, hs, _, ha⟩ := find c f h
    simp [hs, ha]

end Sys2Proof.Tests
end

section
/-! SUPPORT. The operands of requests: single-byte fields, the codings of R187, the fields of DEFINE LANE (R11 to R13). -/
namespace Sys2Proof.Machine

/-! ## Fields and codings -/

/-- A field of one byte is that byte, 0 beyond the body's end. -/
theorem field_one (body : List Byte) (offset : Nat) : field body offset 1 = (body[offset]?.map BitVec.toNat).getD 0 := by
  rw [field, ← List.head?_drop]
  cases body.drop offset <;> simp [numberOf]

theorem field_one_of_getElem? {body : List Byte} {offset : Nat} {b : Byte} (h : body[offset]? = some b) :
    field body offset 1 = b.toNat := by
  rw [field_one, h]; rfl

theorem laneOf_eq_some_iff {n : Nat} {l : LaneId} : laneOf n = some l ↔ n = l.val := by
  unfold laneOf
  split
  · simp [Fin.ext_iff]
  · simp; omega

theorem laneOf_eq_none_iff {n : Nat} : laneOf n = none ↔ 4 ≤ n := by
  unfold laneOf
  split <;> simp <;> omega

theorem classOf_eq_some_iff {n : Nat} {c : Fin 16} : classOf n = some c ↔ n = c.val := by
  unfold classOf
  split
  · simp [Fin.ext_iff]
  · simp; omega

theorem classOf_eq_none_iff {n : Nat} : classOf n = none ↔ 16 ≤ n := by
  unfold classOf
  split <;> simp <;> omega

theorem yesNoOf_eq_some_iff {n : Nat} {v : Bool} : yesNoOf n = some v ↔ n = if v then 1 else 0 := by
  constructor
  · intro h
    unfold yesNoOf at h
    split at h <;> cases h <;> rfl
  · rintro rfl
    cases v <;> rfl

theorem yesNoOf_eq_none_iff {n : Nat} : yesNoOf n = none ↔ 2 ≤ n := by
  match n with
  | 0 | 1 | n + 2 => simp [yesNoOf]

theorem formatOf_eq_some_iff {n : Nat} {v : Format} : formatOf n = some v ↔ n = v.code := by
  constructor
  · intro h
    unfold formatOf at h
    split at h <;> cases h <;> rfl
  · rintro rfl
    cases v <;> rfl

theorem formatOf_eq_none_iff {n : Nat} : formatOf n = none ↔ n = 0 ∨ 5 ≤ n := by
  match n with
  | 0 | 1 | 2 | 3 | 4 | n + 5 => simp [formatOf]

theorem splitOf_eq_some_iff {n : Nat} {v : SplitPolicy} : splitOf n = some v ↔ n = v.code := by
  constructor
  · intro h
    unfold splitOf at h
    split at h <;> cases h <;> rfl
  · rintro rfl
    cases v <;> rfl

theorem splitOf_eq_none_iff {n : Nat} : splitOf n = none ↔ 2 ≤ n := by
  match n with
  | 0 | 1 | n + 2 => simp [splitOf]

theorem titleSizeOf_eq_some_iff {n : Nat} {v : TitleSize} : titleSizeOf n = some v ↔ n = v.code := by
  constructor
  · intro h
    unfold titleSizeOf at h
    split at h <;> cases h <;> rfl
  · rintro rfl
    cases v <;> rfl

theorem titleSizeOf_eq_none_iff {n : Nat} : titleSizeOf n = none ↔ 4 ≤ n := by
  match n with
  | 0 | 1 | 2 | 3 | n + 4 => simp [titleSizeOf]

theorem polarityOf_eq_some_iff {n : Nat} {v : Polarity} : polarityOf n = some v ↔ n = v.code := by
  constructor
  · intro h
    unfold polarityOf at h
    split at h <;> cases h <;> rfl
  · rintro rfl
    cases v <;> rfl

theorem polarityOf_eq_none_iff {n : Nat} : polarityOf n = none ↔ 2 ≤ n := by
  match n with
  | 0 | 1 | n + 2 => simp [polarityOf]

theorem serialPositionOf_eq_none_iff {line column : Nat} :
    serialPositionOf line column = none ↔ 3 ≤ line ∨ (line ≠ 0 ∧ 40 ≤ column) := by
  match line with
  | 0 | n + 3 => simp [serialPositionOf]
  | 1 | 2 => simp [serialPositionOf]; omega

theorem serialActionOf_eq_none_iff {action value : Nat} :
    serialActionOf action value = none ↔ 2 ≤ action ∨ (action = 1 ∧ 1000000 ≤ value) := by
  match action with
  | 0 | n + 2 => simp [serialActionOf]
  | 1 => simp [serialActionOf]; omega

theorem serialActionOf_le {action value n : Nat} (h : serialActionOf action value = some (some n)) : n ≤ 999999 := by
  unfold serialActionOf at h
  split at h <;> simp at h
  omega

/-- The serial action sets a serial exactly when its byte is 1. -/
theorem isSome_of_serialActionOf {action value : Nat} {x : Option Nat} (h : serialActionOf action value = some x) :
    x.isSome = true ↔ action = 1 := by
  unfold serialActionOf at h
  split at h <;> simp at h
  · simp [← h]
  · simp [← h.2]

/-! ## The fields of DEFINE LANE -/

/-- A body of DEFINE LANE whose selectors and title template are in range names lane l, the serial action and, adjusted, the
definition d (R11 to R13). -/
structure CarriesLane (body : List Byte) (l : LaneId) (action : Option Nat) (d : LaneDef) : Prop where
  lane : laneOf (field body 0 1) = some l
  enabled : yesNoOf (field body 1 1) = some d.enabled
  format : formatOf (field body 2 1) = some d.format
  k : laneOf (field body 3 1) = some d.k
  split : splitOf (field body 4 1) = some d.split
  size1 : titleSizeOf (field body 6 1) = some d.line1.size
  size2 : titleSizeOf (field body 8 1) = some d.line2.size
  length1 : field body 5 1 ≤ 40
  length2 : field body 7 1 ≤ 40
  position : serialPositionOf (field body 10 1) (field body 11 1) = some d.serialPosition
  action : serialActionOf (field body 12 1) (field body 13 3) = some action
  polarity : polarityOf (field body 16 1) = some d.polarity
  curve : laneOf (field body 17 1) = some d.curve
  text1 : d.line1.text = (fieldText body 23 (field body 5 1)).map printable
  text2 : d.line2.text = (fieldText body (23 + field body 5 1) (field body 7 1)).map printable
  spacing : d.spacing = clampSpacing (field body 9 1)
  gain : d.gain = clampGain (field body 18 2)
  bias : d.bias = clampBias (field body 20 2)
  imageWait : d.imageWait = field body 22 1

theorem laneDefOf_eq_some_iff {body : List Byte} {l : LaneId} {action : Option Nat} {d : LaneDef} :
    laneDefOf body = some (l, action, d) ↔ CarriesLane body l action d := by
  constructor
  · intro h
    simp only [laneDefOf, Option.bind_eq_bind, Option.bind_eq_some_iff] at h
    obtain ⟨l', hl, enabled, henabled, format, hformat, k, hk, split, hsplit, size1, hsize1, size2, hsize2, h⟩ := h
    split at h
    · cases h
    next hlength =>
      simp only [Option.bind_eq_some_iff] at h
      obtain ⟨position, hposition, action', haction, polarity, hpolarity, curve, hcurve, h⟩ := h
      cases h
      exact ⟨hl, henabled, hformat, hk, hsplit, hsize1, hsize2, by omega, by omega, hposition, haction, hpolarity, hcurve,
        rfl, rfl, rfl, rfl, rfl, rfl⟩
  · intro h
    have hlength : ¬(40 < field body 5 1 ∨ 40 < field body 7 1) := by
      have := h.length1
      have := h.length2
      omega
    obtain ⟨enabled, format, k, split, ⟨text1, size1⟩, ⟨text2, size2⟩, spacing, position, polarity, curve, gain, bias,
      wait⟩ := d
    simp only [laneDefOf, Option.bind_eq_bind, h.lane, h.enabled, h.format, h.k, h.split, h.size1, h.size2, hlength,
      if_false, h.position, h.action, h.polarity, h.curve, Option.bind_some, Option.some.injEq, Prod.mk.injEq, true_and,
      LaneDef.mk.injEq, TitleLine.mk.injEq, and_true]
    exact ⟨h.text1.symm, h.text2.symm, h.spacing.symm, h.gain.symm, h.bias.symm, h.imageWait.symm⟩

end Sys2Proof.Machine
end

section
/-! SUPPORT. Every step keeps the fixed ranges and the link's limits (R7, R16, R173, R196, R201; R136, R183, R190, R191). -/
namespace Sys2Proof.Machine

/-! ## What an update keeps -/

/-- From `s` to `t` the fixed ranges are kept and the link's lists keep what its limits count; the waiting requests stay. -/
structure Keeps (s t : State) : Prop where
  fields : s.FieldsInRange → t.FieldsInRange
  waiting : t.port.waiting = s.port.waiting
  outstanding : t.outstanding = s.outstanding
  fences : t.port.fences.length ≤ s.port.fences.length
  queueFull : queueFullReplies t = queueFullReplies s
  dropped : t.port.dropped = s.port.dropped

theorem Keeps.refl (s : State) : Keeps s s := ⟨id, rfl, rfl, le_rfl, rfl, rfl⟩

theorem Keeps.trans {s t u : State} (h : Keeps s t) (g : Keeps t u) : Keeps s u :=
  ⟨g.fields ∘ h.fields, g.waiting.trans h.waiting, g.outstanding.trans h.outstanding, g.fences.trans h.fences,
    g.queueFull.trans h.queueFull, g.dropped.trans h.dropped⟩

/-- `Keeps.trans` with the last update first: its state is the one a goal names. -/
theorem Keeps.after {s t u : State} (g : Keeps t u) (h : Keeps s t) : Keeps s u := h.trans g

/-- An update that leaves the port alone keeps the link's limits. -/
theorem Keeps.of_port {s t : State} (hp : t.port = s.port) (hf : s.FieldsInRange → t.FieldsInRange) : Keeps s t := by
  refine ⟨hf, by rw [hp], ?_, by rw [hp], ?_, by rw [hp]⟩
  · simp only [State.outstanding, hp]
  · simp only [queueFullReplies, hp]

/-- The fixed ranges speak of these fields alone. -/
theorem State.FieldsInRange.congr {s t : State} (h : s.FieldsInRange) (hl : t.laneTable = s.laneTable)
    (hc : t.composer.contexts = s.composer.contexts) (hp : t.port = s.port) (hg : t.gate.film = s.gate.film) :
    t.FieldsInRange := by
  simpa only [State.FieldsInRange, State.lane, State.fiche, hl, hc, hp, hg] using h

theorem Keeps.of_same {s t : State} (hl : t.laneTable = s.laneTable) (hc : t.composer.contexts = s.composer.contexts)
    (hp : t.port = s.port) (hg : t.gate.film = s.gate.film) : Keeps s t :=
  .of_port hp fun h => h.congr hl hc hp hg

/-! ## Contexts, lanes and queues -/

/-- A context may be set to a fiche whose serial is in range. -/
theorem keeps_setContext {s : State} {c : CtxId} {x : Option Fiche}
    (h : s.FieldsInRange → ∀ f, x = some f → f.serial ≤ 999999) : Keeps s (s.setContext c x) := by
  refine .of_port rfl fun hs => ?_
  obtain ⟨hcls, hnext, hserial, hport, hcount, hfilm⟩ := id hs
  refine ⟨hcls, hnext, fun d f hf => ?_, hport, hcount, hfilm⟩
  rw [State.fiche_setContext] at hf
  split at hf
  · exact h hs f hf
  · exact hserial d f hf

/-- A fiche of an existing context with its serial kept. -/
theorem keeps_setContext_sameSerial {s : State} {c d : CtxId} {f g : Fiche} (h : s.fiche d = some f)
    (hg : g.serial = f.serial) : Keeps s (s.setContext c (some g)) := by
  refine keeps_setContext fun hs x hx => ?_
  obtain ⟨-, -, hserial, -⟩ := hs
  cases hx
  rw [hg]
  exact hserial d f h

theorem keeps_modifyFiche (s : State) (c : CtxId) {g : Fiche → Fiche} (hg : ∀ f, (g f).serial = f.serial) :
    Keeps s (s.modifyFiche c g) := by
  refine keeps_setContext fun hs x hx => ?_
  obtain ⟨f, hf, rfl⟩ := Option.map_eq_some_iff.1 hx
  obtain ⟨-, -, hserial, -⟩ := hs
  rw [hg]
  exact hserial c f hf

theorem keeps_setQueue (s : State) (l : LaneId) (q : List CtxId) : Keeps s (s.setQueue l q) := .of_same rfl rfl rfl rfl

theorem keeps_setLane {s : State} {l : LaneId} {x : Lane} (h : s.FieldsInRange → x.nextSerial ≤ 999999) :
    Keeps s (s.setLane l x) := by
  refine .of_port rfl fun hs => ?_
  obtain ⟨hcls, hnext, hserial, hport, hcount, hfilm⟩ := id hs
  refine ⟨hcls, fun m => ?_, hserial, hport, hcount, hfilm⟩
  rw [State.lane_setLane]
  split
  · exact h hs
  · exact hnext m

theorem keeps_setNextSerial {s : State} {l : LaneId} {n : Nat} (h : s.FieldsInRange → n ≤ 999999) :
    Keeps s (s.setNextSerial l n) := keeps_setLane h

/-! ## Flags and counters -/

theorem reservedSet_or_flagMask {v : BitVec 24} {bit : Nat} (hb : bit < 22) :
    reservedSet (v ||| flagMask bit) = reservedSet v := by
  have h22 : 22 ≠ bit := by omega
  have h23 : 23 ≠ bit := by omega
  simp [reservedSet, flagMask, h22, h23]

theorem keeps_setFlag (s : State) {bit : Nat} (hb : bit < 22) : Keeps s (s.setFlag bit) := by
  refine ⟨fun hs => ?_, rfl, rfl, le_rfl, rfl, rfl⟩
  obtain ⟨hcls, hnext, hserial, ⟨hflags, hmask⟩, hcount, hfilm⟩ := hs
  exact ⟨hcls, hnext, hserial, ⟨(reservedSet_or_flagMask hb).trans hflags, hmask⟩, hcount, hfilm⟩

theorem laneFlagBit_lt (l : LaneId) (k : LaneFlag) : laneFlagBit l k < 22 := by
  cases k <;> simp only [laneFlagBit] <;> omega

theorem keeps_setLaneFlag (s : State) (l : LaneId) (k : LaneFlag) : Keeps s (s.setLaneFlag l k) :=
  keeps_setFlag s (laneFlagBit_lt l k)

theorem saturate_le (n k : Nat) : saturate n k ≤ 65535 := min_le_left _ _

/-- The range of the counters, counter by counter. -/
theorem Counters.inRange_iff (k : Counters) : k.inRange ↔
    k.correctedEcc ≤ 65535 ∧ k.uncorrectableEcc ≤ 65535 ∧ k.spoiledSheets ≤ 65535 ∧ k.orphanImages ≤ 65535 ∧
      k.lateImages ≤ 65535 ∧ k.missingPlaceholders ≤ 65535 ∧ k.saturatedCells ≤ 65535 := by
  simp [Counters.inRange, Counters.list]

theorem keeps_withCounters (s : State) {g : Counters → Counters} (hg : ∀ k, k.inRange → (g k).inRange) :
    Keeps s (s.withCounters g) := by
  refine ⟨fun hs => ?_, rfl, rfl, le_rfl, rfl, rfl⟩
  obtain ⟨hcls, hnext, hserial, hport, hcount, hfilm⟩ := hs
  exact ⟨hcls, hnext, hserial, hport, hg _ hcount, hfilm⟩

theorem keeps_countSpoiled (s : State) : Keeps s s.countSpoiled :=
  keeps_withCounters s fun k hk => by
    rw [Counters.inRange_iff] at hk ⊢
    simp only [saturate_le, hk, and_self]

/-! ## The gate -/

theorem keeps_gate (s : State) {g : Gate} (hg : s.gate.film ≤ 4095 → g.film ≤ 4095) :
    Keeps s { s with gate := g } := by
  refine .of_port rfl fun hs => ?_
  obtain ⟨hcls, hnext, hserial, hport, hcount, hfilm⟩ := hs
  exact ⟨hcls, hnext, hserial, hport, hcount, hg hfilm⟩

theorem keeps_enterGate (s : State) (g : GateState) (x : Option Step) : Keeps s (s.enterGate g x) :=
  keeps_gate s id

/-! ## The end of an event -/

theorem keeps_evalFilmOut (before s : State) : Keeps s (before.evalFilmOut s) := by
  unfold State.evalFilmOut
  split
  · exact keeps_setFlag s (by decide)
  · exact .refl s

theorem keeps_wakeLamp (s : State) : Keeps s s.wakeLamp := by
  unfold State.wakeLamp
  split
  · exact keeps_gate s id
  · exact .refl s

theorem keeps_conclude (before s : State) : Keeps s (before.conclude s) :=
  (keeps_evalFilmOut before s).trans (keeps_wakeLamp _)

theorem keeps_stallTest (s : State) : Keeps s s.stallTest := by
  obtain ⟨-, -, hlane, -, hcomp, -, hgate, hport, -⟩ := stallTest_frame s
  exact .of_same hlane (by rw [hcomp]) hport (by rw [hgate])

/-! ## Queues, the end of composition and fences -/

theorem keeps_queueFiche (s : State) (c : CtxId) : Keeps s (s.queueFiche c) := by
  unfold State.queueFiche
  split
  next f hf => exact (keeps_setQueue _ _ _).after (keeps_setContext_sameSerial hf rfl)
  next => exact .refl s

theorem keeps_putBack (s : State) (c : CtxId) : Keeps s (s.putBack c) := by
  unfold State.putBack
  split
  next f hf => exact (keeps_setQueue _ _ _).after (keeps_setContext_sameSerial hf rfl)
  next => exact .refl s

theorem keeps_expireImageWait (s : State) (c : CtxId) : Keeps s (s.expireImageWait c) := by
  unfold State.expireImageWait
  split
  next f hf =>
    refine (keeps_queueFiche _ c).after (.after (keeps_withCounters _ fun k hk => ?_)
      ((keeps_setLaneFlag _ _ _).after (keeps_setContext_sameSerial hf rfl)))
    rw [Counters.inRange_iff] at hk ⊢
    simp only [saturate_le, hk, and_self]
  next => exact .refl s

theorem keeps_completeIfDone (s : State) (c : CtxId) : Keeps s (s.completeIfDone c) := by
  unfold State.completeIfDone
  split
  · split
    · exact keeps_queueFiche s c
    · exact .refl s
  · exact .refl s

theorem keeps_closeFiche (s : State) (c : CtxId) (k : CloseCause) : Keeps s (s.closeFiche c k) := by
  unfold State.closeFiche
  split
  next f hf =>
    have hclosing : Keeps s (s.setContext c (some { f with
        state := .closing, cause := some k, timer := some f.imageWait })) := keeps_setContext_sameSerial hf rfl
    dsimp only
    split
    · exact (keeps_queueFiche _ c).after hclosing
    · split
      · exact (keeps_expireImageWait _ c).after hclosing
      · exact hclosing
  next => exact .refl s

/-- The freed serial is the lane's next one again; it was in range as the fiche's. -/
theorem keeps_freeEmptyFiche (s : State) (c : CtxId) : Keeps s (s.freeEmptyFiche c) := by
  unfold State.freeEmptyFiche
  split
  next f hf =>
    refine .of_port rfl fun hs => ?_
    have hfreed : (s.setContext c none).FieldsInRange := (keeps_setContext (by simp)).fields hs
    obtain ⟨-, -, hserial, -⟩ := hs
    exact (keeps_setNextSerial fun _ => hserial c f hf).fields hfreed
  next => exact .refl s

/-- Replies that all carry one completion, counted by their completion. -/
theorem countP_sameCompletion (p : Completion → Bool) {k : Completion} {rs : List Reply}
    (h : ∀ r ∈ rs, r.completion = k) : rs.countP (fun r => p r.completion) = if p k then rs.length else 0 := by
  split
  next hp => exact List.countP_eq_length.2 fun r hr => by rw [h r hr, hp]
  next hp => exact List.countP_eq_zero.2 fun r hr => by rwa [h r hr]

/-- Fences that leave the pending list, each answered with the same completion, count as outstanding as before. -/
theorem keeps_answerFences (s : State) (stay : List PendingFence) (replies : List Reply) {k : Completion}
    (hk : k ≠ .queueFull) (hr : ∀ r ∈ replies, r.completion = k)
    (hlen : stay.length + replies.length = s.port.fences.length) :
    Keeps s { s with port := { s.port with fences := stay, outbound := s.port.outbound ++ replies } } := by
  refine ⟨id, rfl, ?_, ?_, ?_, rfl⟩
  · have := countP_sameCompletion (fun k => k != .queueFull) hr
    simp only [State.outstanding, List.countP_append, this, bne_iff_ne, ne_eq, hk, not_false_eq_true, if_true]
    omega
  · show stay.length ≤ _
    omega
  · have := countP_sameCompletion (fun k => k == .queueFull) hr
    simp only [queueFullReplies, List.countP_append, this, beq_iff_eq, hk, if_false, Nat.add_zero]

theorem keeps_settleFences (s : State) (c : CtxId) (o : FenceOutcome) : Keeps s (s.settleFences c o) := by
  refine keeps_answerFences s _ _ (k := .ok) (by decide) (List.forall_mem_map.2 fun _ _ => rfl) ?_
  have hsplit := List.length_eq_length_filter_add (l := s.port.fences.map (PendingFence.settle c o)) PendingFence.settled
  simp only [List.length_map] at hsplit ⊢
  omega

theorem keeps_abortFences (s : State) : Keeps s s.abortFences :=
  keeps_answerFences s [] _ (k := .aborted) (by decide) (List.forall_mem_map.2 fun _ _ => rfl) (by simp)

theorem keeps_interruptFiche (s : State) (c : CtxId) : Keeps s (s.interruptFiche c) := by
  unfold State.interruptFiche
  split
  next f hf =>
    split
    · exact (keeps_putBack _ c).after (keeps_modifyFiche s c fun _ => rfl)
    · exact (keeps_settleFences _ c _).after ((keeps_setLaneFlag _ _ _).after (keeps_setContext_sameSerial hf rfl))
  next => exact .refl s

/-! ## Opening a fiche and placing a part -/

theorem nextSerialAfter_le (n : Nat) : nextSerialAfter n ≤ 999999 := by
  have := Nat.mod_lt (n + 1) (y := 1000000) (by decide)
  unfold nextSerialAfter
  omega

/-- The fiche takes the lane's next serial. -/
theorem keeps_openFiche (s : State) (c : CtxId) (l : LaneId) (d : LaneDef) (titles : Option (List TitleLine × Nat)) :
    Keeps s (s.openFiche c l d titles) := by
  refine (keeps_setNextSerial fun _ => nextSerialAfter_le _).after (keeps_setContext fun hs f hf => ?_)
  obtain ⟨-, hnext, -⟩ := hs
  cases hf
  exact hnext l

theorem keeps_placePart (s : State) (key : Key) (span : Span) (p : RecordPart) : Keeps s (s.placePart key span p) :=
  keeps_modifyFiche s _ fun _ => rfl

theorem keeps_placeOnNew (s : State) (c : CtxId) (l : LaneId) (d : LaneDef) (key : Key) (span : Span) (q n : Nat) :
    Keeps s (s.placeOnNew c l d key span q n).1 :=
  (keeps_placePart _ _ _ _).after (keeps_openFiche s c l d none)

/-- Every way of placing a document (R51 to R56) keeps the ranges. -/
theorem keeps_choosePlace {s : State} {l : LaneId} {d : LaneDef} {key : Key} {span : Span} {n : Nat} {p : Placement}
    (h : s.choosePlace l d key span n = some p) : Keeps s p.state := by
  unfold State.choosePlace at h
  split at h
  · obtain ⟨c, -, rfl⟩ := Option.map_eq_some_iff.1 h
    exact keeps_placeOnNew s c l d key span 1 n
  · dsimp only at h
    split at h
    · cases h
      exact keeps_placePart s key span _
    · split at h
      · obtain ⟨c, -, rfl⟩ := Option.map_eq_some_iff.1 h
        exact (keeps_placeOnNew _ _ _ _ _ _ _ _).after ((keeps_closeFiche _ _ _).after (keeps_placePart s key span _))
      · split at h
        · obtain ⟨c, -, rfl⟩ := Option.map_eq_some_iff.1 h
          exact (keeps_placeOnNew _ _ _ _ _ _ _ _).after (keeps_closeFiche s _ _)
        · obtain ⟨c, -, rfl⟩ := Option.map_eq_some_iff.1 h
          exact (keeps_placeOnNew _ _ _ _ _ _ _ _).after (keeps_freeEmptyFiche s _)

/-! ## The directory -/

theorem keeps_foldl {β : Type} {g : State → β → State} (hg : ∀ s x, Keeps s (g s x)) (xs : List β) :
    ∀ s : State, Keeps s (xs.foldl g s) := by
  induction xs with
  | nil => exact .refl
  | cons x xs ih => exact fun s => (ih _).after (hg s x)

theorem keeps_directory (s : State) (rs : List Record) : Keeps s { s with directory := rs } := .of_same rfl rfl rfl rfl

theorem keeps_withdrawRecord (s : State) (r : Record) : Keeps s (s.withdrawRecord r) :=
  (keeps_directory _ _).after (keeps_foldl (fun s _ => keeps_modifyFiche s _ (by intro; rfl)) _ s)

theorem keeps_updateRecord (s : State) (key : Key) (g : Record → Record) : Keeps s (s.updateRecord key g) :=
  keeps_directory s _

theorem keeps_rekey (s : State) (r : Record) (new : Key) : Keeps s (s.rekey r new) :=
  (keeps_directory _ _).after ((keeps_directory _ _).after
    (keeps_foldl (fun s _ => keeps_modifyFiche s _ (by intro; rfl)) _ s))

theorem keeps_applyPageCount {s t : State} {r r' : Record} {count : Option Nat}
    (h : s.applyPageCount r count = some (t, r')) : Keeps s t := by
  unfold State.applyPageCount at h
  split at h
  · split at h
    · cases h
      exact .refl s
    · obtain ⟨f, hf, h⟩ := Option.bind_eq_some_iff.1 h
      obtain ⟨⟨cells, first⟩, -, h⟩ := Option.map_eq_some_iff.1 h
      cases h
      exact (keeps_updateRecord _ _ _).after (keeps_setContext_sameSerial hf rfl)
  · cases h
    exact .refl s

/-! ## Reaching a cell -/

theorem keeps_modifyCell (s : State) (c : CtxId) (cell : Nat) (g : Occupied → Occupied) :
    Keeps s (s.modifyCell c cell g) := keeps_modifyFiche s c fun _ => rfl

theorem keeps_readBuffer (s : State) (c : CtxId) (f : Format) (buffer : Nat) : Keeps s (s.readBuffer c f buffer).2 := by
  unfold State.readBuffer
  dsimp only
  refine .after (keeps_withCounters _ fun k hk => ?_) ((keeps_modifyFiche _ c (by intro; rfl)).after
    (.of_same rfl rfl rfl rfl))
  rw [Counters.inRange_iff] at hk ⊢
  simp only [saturate_le, hk, and_self]

theorem keeps_saturateCell (s : State) (c : CtxId) (cell : Nat) : Keeps s (s.saturateCell c cell) := by
  unfold State.saturateCell
  refine .after (keeps_withCounters _ fun k hk => ?_) ((keeps_modifyFiche _ c (by intro; rfl)).after
    (keeps_modifyCell s c cell _))
  rw [Counters.inRange_iff] at hk ⊢
  simp only [saturate_le, hk, and_self]

theorem keeps_showCell (s : State) (c : CtxId) (f : Fiche) (cell : Nat) (o : Occupied) :
    Keeps s (s.showCell c f cell o).2 := by
  unfold State.showCell
  dsimp only
  split
  next b _ _ =>
    have hread := keeps_readBuffer s c ((s.memory.extent b).getD f.format) b
    split
    next t ht =>
      rw [ht] at hread
      exact (keeps_modifyCell _ _ _ _).after ((keeps_setLaneFlag _ _ _).after hread)
    next t ht =>
      rw [ht] at hread
      dsimp only
      split
      · exact (keeps_saturateCell _ _ _).after hread
      · exact hread
    next t ht =>
      rw [ht] at hread
      dsimp only
      split
      · exact (keeps_saturateCell _ _ _).after hread
      · exact hread
  next b _ _ =>
    have hread := keeps_readBuffer s c ((s.memory.extent b).getD f.format) b
    split
    next t ht =>
      rw [ht] at hread
      exact (keeps_setLaneFlag _ _ _).after hread
    next t ht => rwa [ht] at hread
    next t ht => rwa [ht] at hread
  all_goals exact .refl s

theorem keeps_finishPages (s : State) (c : CtxId) : Keeps s (s.finishPages c) := by
  unfold State.finishPages
  split
  · split
    · exact keeps_enterGate s _ _
    · exact keeps_enterGate s _ _
  · exact .refl s

theorem keeps_reachFrom (s : State) (c : CtxId) (start : Nat) : Keeps s (s.reachFrom c start) := by
  unfold State.reachFrom
  split
  · split
    · exact (keeps_enterGate _ _ _).after (keeps_showCell s c _ _ _)
    · exact keeps_finishPages s c
  · exact .refl s

/-! ## Interruptions and image intake -/

theorem Gate.stop_film (g : Gate) : g.stop.film = g.film := by
  unfold Gate.stop
  split <;> rfl

theorem keeps_stopTransport (s : State) : Keeps s s.stopTransport := by
  have hflag : Keeps s (s.setFlag transportBit) := keeps_setFlag s (by decide)
  have hgate : ∀ t : State, Keeps t { t with gate := t.gate.stop } := fun t =>
    keeps_gate t (by rw [Gate.stop_film]; exact id)
  unfold State.stopTransport
  dsimp only
  split
  · exact (hgate _).after ((keeps_interruptFiche _ _).after ((keeps_countSpoiled _).after hflag))
  · exact (hgate _).after hflag

theorem keeps_lampFails (s : State) : Keeps s s.lampFails :=
  (keeps_gate (s.setFlag lampFaultBit) (g := s.gate.lampTo .fault) id).after
    (keeps_setFlag s (bit := lampFaultBit) (by decide))

theorem keeps_spoilExposure (s : State) (c : CtxId) : Keeps s (s.spoilExposure c) :=
  (keeps_gate _ (g := (s.countSpoiled.interruptFiche c).gate.enter _ _) id).after
    ((keeps_interruptFiche _ c).after (keeps_countSpoiled s))

theorem keeps_reject (s : State) (why : Rejection) : Keeps s (s.reject why) := by
  unfold State.reject
  cases why with
  | orphan =>
    refine .after (keeps_withCounters _ fun k hk => ?_) (keeps_setFlag s (bit := orphanBit) (by decide))
    rw [Counters.inRange_iff] at hk ⊢
    simp only [saturate_le, hk, and_self]
  | late =>
    refine .after (keeps_withCounters _ fun k hk => ?_) (keeps_setFlag s (bit := lateBit) (by decide))
    rw [Counters.inRange_iff] at hk ⊢
    simp only [saturate_le, hk, and_self]

theorem keeps_intake (s : State) (i : Intake) : Keeps s { s with intake := i } := .of_same rfl rfl rfl rfl

theorem keeps_discard (s : State) (h : Header) (why : Rejection) : Keeps s (s.discard h why) :=
  (keeps_intake _ _).after (keeps_reject s why)

theorem keeps_judgeHeader (s : State) (h : Header) : Keeps s (s.judgeHeader h) := by
  unfold State.judgeHeader
  split
  · exact keeps_discard s h _
  · split
    · exact keeps_discard s h _
    · dsimp only
      split
      · exact .of_same rfl rfl rfl rfl
      · exact (keeps_intake _ _).after (keeps_setFlag s (by decide))

theorem fiche_of_judge {s : State} {key : Key} {page : Nat} {r : Record} {p : RecordPart} {f : Fiche}
    (h : s.judge key page = .matched r p f) : s.fiche p.ctx = some f := by
  unfold State.judge at h
  repeat' split at h
  all_goals cases h
  assumption

theorem keeps_endTransfer (s : State) (m : Matched) (buffers : List Nat) : Keeps s (s.endTransfer m buffers) := by
  unfold State.endTransfer
  dsimp only
  split
  · exact (keeps_reject _ _).after (keeps_intake s _)
  next r p f hj =>
    split
    · exact (keeps_reject _ _).after (keeps_intake s _)
    · refine (keeps_completeIfDone _ _).after ((keeps_updateRecord _ _ _).after (.after ?_ (keeps_intake s (.ready []))))
      exact keeps_setContext_sameSerial (d := p.ctx) (f := f) (fiche_of_judge hj) rfl

end Sys2Proof.Machine
end

section
/-! SUPPORT. Every command keeps the fixed ranges and the link's limits: each request, each other event, the step. -/
namespace Sys2Proof.Machine

/-! ## What a request may answer -/

/-- What a request's act leaves: an answered one keeps the ranges and is not answered QUEUE_FULL; a parked one adds one
fence to fewer than four. -/
inductive ActKeeps (s : State) : State × Answer → Prop
  | answers {t : State} {k : Completion} {b : List Byte} (h : Keeps s t) (hk : k ≠ .queueFull) :
      ActKeeps s (t, some (k, b))
  | parks (p : PendingFence) (h : s.port.fences.length < maxFences) :
      ActKeeps s ({ s with port := { s.port with fences := s.port.fences ++ [p] } }, none)

theorem actKeeps_refuse (s : State) {k : Completion} (hk : k ≠ .queueFull) : ActKeeps s (s.refuse k) :=
  .answers (.refl s) hk

/-! ## The requests -/

theorem actKeeps_defineLane (f : Frame) (s : State) : ActKeeps s (defineLane f s) := by
  unfold defineLane
  split
  · exact actKeeps_refuse s (by decide)
  next l action d hd =>
    split
    · exact actKeeps_refuse s (by decide)
    · have hcolumn : ∀ t : State, Keeps t (t.columnByte d).2 := by
        intro t
        unfold State.columnByte
        split
        · exact .refl t
        · exact .of_same rfl rfl rfl rfl
      refine .answers ((hcolumn _).after (keeps_setLane fun hs => ?_)) (by decide)
      cases action with
      | none =>
        obtain ⟨-, hnext, -⟩ := hs
        exact hnext l
      | some n => exact serialActionOf_le (laneDefOf_eq_some_iff.1 hd).action

/-- Class 0 is mapped to lane 0 only. -/
theorem actKeeps_mapClass (f : Frame) (s : State) : ActKeeps s (mapClass f s) := by
  unfold mapClass
  split
  next c l _ _ =>
    split
    · exact actKeeps_refuse s (by decide)
    next hc =>
      refine .answers (.of_port rfl fun hs => ?_) (by decide)
      obtain ⟨hcls, hnext, hserial, hport, hcount, hfilm⟩ := hs
      refine ⟨?_, hnext, hserial, hport, hcount, hfilm⟩
      by_cases h0 : c = 0
      · have hl : l = 0 := by
          by_contra hl
          exact hc ⟨h0, hl⟩
        subst h0 hl
        simp [Vector.get_eq_getElem]
      · have : c.val ≠ 0 := fun h => h0 (Fin.ext h)
        simpa [Vector.get_eq_getElem, this] using hcls
  next => exact actKeeps_refuse s (by decide)

theorem actKeeps_lookup (f : Frame) (s : State) : ActKeeps s (lookup f s) := by
  unfold lookup
  dsimp only
  split <;> exact .answers (.refl s) (by decide)

theorem actKeeps_findNext (f : Frame) (s : State) : ActKeeps s (findNext f s) := by
  unfold findNext
  dsimp only
  split
  · exact actKeeps_refuse s (by decide)
  · split
    · exact actKeeps_refuse s (by decide)
    · split
      · exact .answers (.refl s) (by decide)
      · exact actKeeps_refuse s (by decide)

theorem actKeeps_amend (f : Frame) (s : State) : ActKeeps s (amend f s) := by
  unfold amend
  extract_lets key changes newKey count expected tests
  split
  · exact actKeeps_refuse s (by decide)
  · split
    · exact actKeeps_refuse s (by decide)
    · split
      · exact actKeeps_refuse s (by decide)
      · split
        · exact .answers (.refl s) (by decide)
        · split
          · exact actKeeps_refuse s (by decide)
          · split
            · exact actKeeps_refuse s (by decide)
            · split
              · exact actKeeps_refuse s (by decide)
              next t r' ht =>
                refine .answers ((keeps_stallTest _).after ((keeps_updateRecord _ _ _).after ?_)) (by decide)
                split
                · exact (keeps_rekey _ _ _).after (keeps_applyPageCount ht)
                · exact keeps_applyPageCount ht

theorem actKeeps_withdraw (f : Frame) (s : State) : ActKeeps s (withdraw f s) := by
  unfold withdraw
  dsimp only
  split
  · exact actKeeps_refuse s (by decide)
  · split
    · exact actKeeps_refuse s (by decide)
    · split
      · exact actKeeps_refuse s (by decide)
      · split
        · exact .answers (.refl s) (by decide)
        · exact .answers ((keeps_stallTest _).after (keeps_withdrawRecord s _)) (by decide)

theorem actKeeps_purge (f : Frame) (s : State) : ActKeeps s (purge f s) := by
  unfold purge
  split
  · exact actKeeps_refuse s (by decide)
  · exact .answers ((keeps_stallTest _).after (keeps_foldl keeps_withdrawRecord _ s)) (by decide)

theorem actKeeps_openFiche (f : Frame) (s : State) : ActKeeps s (openFiche f s) := by
  unfold openFiche
  split
  · split
    · exact actKeeps_refuse s (by decide)
    · split
      · exact actKeeps_refuse s (by decide)
      · split
        · exact actKeeps_refuse s (by decide)
        · exact .answers (keeps_openFiche s _ _ _ _) (by decide)
  · exact actKeeps_refuse s (by decide)

theorem actKeeps_place (f : Frame) (s : State) : ActKeeps s (place f s) := by
  unfold place
  dsimp only
  split
  · split
    · exact actKeeps_refuse s (by decide)
    · split
      · exact actKeeps_refuse s (by decide)
      · split
        · exact actKeeps_refuse s (by decide)
        · split
          · exact actKeeps_refuse s (by decide)
          · split
            · exact actKeeps_refuse s (by decide)
            · split
              · exact actKeeps_refuse s (by decide)
              next p hp =>
                exact .answers ((keeps_conclude _ _).after ((keeps_directory _ _).after (keeps_choosePlace hp))) (by decide)
  · exact actKeeps_refuse s (by decide)

theorem keeps_countByte (s : State) (n : Nat) : Keeps s (s.countByte n).2 := by
  unfold State.countByte
  split
  · exact .refl s
  · exact .of_same rfl rfl rfl rfl

theorem actKeeps_readFiche (f : Frame) (s : State) : ActKeeps s (readFiche f s) := by
  unfold readFiche
  dsimp only
  split
  · exact actKeeps_refuse s (by decide)
  · split
    · exact .answers (.refl s) (by decide)
    · split
      · exact actKeeps_refuse s (by decide)
      · exact .answers (keeps_countByte s _) (by decide)

theorem closeTarget_refusal {s : State} {l : LaneId} {named : Option CtxId} {k : Completion} {b : List Byte}
    (h : s.closeTarget l named = .inr (k, b)) : k = .nothingOpen ∨ k = .frozen := by
  unfold State.closeTarget at h
  repeat' split at h
  all_goals cases h
  all_goals simp

theorem actKeeps_close (f : Frame) (s : State) : ActKeeps s (close f s) := by
  unfold close
  split
  · split
    next refusal hr =>
      obtain ⟨k, b⟩ := refusal
      refine .answers (.refl s) ?_
      rcases closeTarget_refusal hr with rfl | rfl <;> decide
    · split
      · exact actKeeps_refuse s (by decide)
      · dsimp only
        split
        · exact .answers (keeps_freeEmptyFiche s _) (by decide)
        · exact .answers ((keeps_conclude _ _).after (keeps_closeFiche s _ _)) (by decide)
  · exact actKeeps_refuse s (by decide)

theorem actKeeps_fence (f : Frame) (s : State) : ActKeeps s (fence f s) := by
  unfold fence
  dsimp only
  split
  · exact actKeeps_refuse s (by decide)
  · split
    · exact .answers (.refl s) (by decide)
    · split
      · exact actKeeps_refuse s (by decide)
      next h => exact .parks _ (by omega)

theorem actKeeps_requeue (f : Frame) (s : State) : ActKeeps s (requeue f s) := by
  unfold requeue
  split
  · split
    · exact actKeeps_refuse s (by decide)
    next x hx =>
      split
      · exact actKeeps_refuse s (by decide)
      · exact .answers ((keeps_conclude _ _).after ((keeps_queueFiche _ _).after
          (keeps_setContext_sameSerial hx rfl))) (by decide)
  · exact actKeeps_refuse s (by decide)

theorem actKeeps_release (f : Frame) (s : State) : ActKeeps s (release f s) := by
  unfold release
  split
  · dsimp only
    split
    · exact .answers (.refl s) (by decide)
    · split
      · exact .answers (.refl s) (by decide)
      · split
        · exact .answers (.refl s) (by decide)
        · exact .answers ((keeps_stallTest _).after ((keeps_directory _ _).after ((keeps_setContext (by simp)).after
            (keeps_countByte s _)))) (by decide)
  · exact actKeeps_refuse s (by decide)

theorem actKeeps_loadArbitration (f : Frame) (s : State) : ActKeeps s (loadArbitration f s) :=
  .answers (.of_same rfl rfl rfl rfl) (by decide)

theorem actKeeps_loadCurve (f : Frame) (s : State) : ActKeeps s (loadCurve f s) := by
  unfold loadCurve
  split
  · exact actKeeps_refuse s (by decide)
  · exact .answers (keeps_gate s (by exact id)) (by decide)

/-- A film count set by the host is at most 4095 (R173). -/
theorem actKeeps_setFilm (f : Frame) (s : State) : ActKeeps s (setFilm f s) := by
  have hfilm : ∀ n, (s.gate.setFilm n).film = n := by
    intro n
    unfold Gate.setFilm
    dsimp only
    split <;> rfl
  unfold setFilm
  dsimp only
  split
  · exact actKeeps_refuse s (by decide)
  · refine .answers ((keeps_conclude _ _).after (keeps_gate s fun _ => ?_)) (by decide)
    rw [hfilm]
    exact min_le_left _ _

theorem actKeeps_setStandby (f : Frame) (s : State) : ActKeeps s (setStandby f s) :=
  .answers (keeps_gate s (by exact id)) (by decide)

theorem actKeeps_performLamp (s : State) {g : Gate} (h : g.film = s.gate.film) : ActKeeps s (s.performLamp g) :=
  .answers (keeps_gate s (by rw [h]; exact id)) (by decide)

theorem actKeeps_refuseLamp (s : State) {k : Completion} (hk : k ≠ .queueFull) : ActKeeps s (s.refuseLamp k) :=
  .answers (.refl s) hk

theorem actKeeps_lampOn (f : Frame) (s : State) : ActKeeps s (lampOn f s) := by
  unfold lampOn
  split
  · exact actKeeps_refuseLamp s (by decide)
  · split
    case h_5 => exact actKeeps_refuseLamp s (by decide)
    all_goals exact actKeeps_performLamp s rfl

theorem actKeeps_lampOff (f : Frame) (s : State) : ActKeeps s (lampOff f s) := by
  unfold lampOff
  split
  · exact actKeeps_refuseLamp s (by decide)
  · split
    · exact actKeeps_refuseLamp s (by decide)
    · exact actKeeps_performLamp s rfl

theorem actKeeps_lampClear (f : Frame) (s : State) : ActKeeps s (lampClear f s) := by
  unfold lampClear
  split
  · exact actKeeps_performLamp s rfl
  all_goals exact actKeeps_refuseLamp s (by decide)

theorem actKeeps_readStatus (f : Frame) (s : State) : ActKeeps s (readStatus f s) := .answers (.refl s) (by decide)

/-- Clearing flags sets no reserved bit (R196, R198). -/
theorem actKeeps_readAttention (f : Frame) (s : State) : ActKeeps s (readAttention f s) := by
  unfold readAttention
  dsimp only
  split
  · exact actKeeps_refuse s (by decide)
  · refine .answers ⟨fun hs => ?_, rfl, rfl, le_rfl, rfl, rfl⟩ (by decide)
    obtain ⟨hcls, hnext, hserial, ⟨hflags, hmask⟩, hcount, hfilm⟩ := hs
    refine ⟨hcls, hnext, hserial, ⟨?_, hmask⟩, hcount, hfilm⟩
    simp only [reservedSet, Bool.or_eq_false_iff] at hflags ⊢
    simp only [BitVec.getLsbD_and, hflags, Bool.false_and, and_self]

theorem actKeeps_setAttentionMask (f : Frame) (s : State) : ActKeeps s (setAttentionMask f s) := by
  unfold setAttentionMask
  dsimp only
  split
  · exact actKeeps_refuse s (by decide)
  next hmask =>
    refine .answers ⟨fun hs => ?_, rfl, rfl, le_rfl, rfl, rfl⟩ (by decide)
    obtain ⟨hcls, hnext, hserial, ⟨hflags, -⟩, hcount, hfilm⟩ := hs
    exact ⟨hcls, hnext, hserial, ⟨hflags, by simpa using hmask⟩, hcount, hfilm⟩

theorem actKeeps_readCounters (f : Frame) (s : State) : ActKeeps s (readCounters f s) := by
  unfold readCounters
  split
  · exact actKeeps_refuse s (by decide)
  · refine .answers ?_ (by decide)
    split
    · exact keeps_withCounters s fun _ _ => (Counters.inRange_iff _).2 (by decide)
    · exact .refl s

theorem actKeeps_softReset (f : Frame) (s : State) : ActKeeps s (softReset f s) := by
  have hgate : Keeps s s.softResetGate := by
    unfold State.softResetGate
    split
    · exact (keeps_enterGate _ _ _).after ((keeps_putBack _ _).after (keeps_countSpoiled s))
    · exact .refl s
  have hreset : ∀ (t : State) (a : Arbiter), Keeps t { t with intake := .ready [], arbiter := a } :=
    fun t a => .of_same rfl rfl rfl rfl
  exact .answers ((keeps_conclude _ _).after ((hreset _ _).after ((keeps_abortFences _).after hgate))) (by decide)

theorem actKeeps_unknownRequest (f : Frame) (s : State) : ActKeeps s (unknownRequest f s) :=
  actKeeps_refuse s (by decide)

/-! ## A command -/

/-- From `s` to `t` both invariants are kept. -/
def StepKeeps (s t : State) : Prop := (s.FieldsInRange → t.FieldsInRange) ∧ (s.LinkInBounds → t.LinkInBounds)

theorem Keeps.stepKeeps {s t : State} (h : Keeps s t) : StepKeeps s t := by
  refine ⟨h.fields, fun ⟨hout, hfences, hfull, hdropped⟩ => ⟨?_, h.fences.trans hfences, ?_, ?_⟩⟩
  · rwa [h.outstanding]
  · rwa [h.queueFull]
  · rwa [h.dropped]

/-- An answered request leaves the waiting list and its reply joins the outbound one: as many are outstanding. -/
theorem stepKeeps_answered {s t : State} {f : Frame} {rest : List Frame} {k : Completion} {b : List Byte}
    (h : Keeps s t) (hk : k ≠ .queueFull) (hw : s.port.waiting = f :: rest) : StepKeeps s (t.answered f rest k b) := by
  refine ⟨h.fields, fun ⟨hout, hfences, hfull, hdropped⟩ => ⟨?_, h.fences.trans hfences, ?_, ?_⟩⟩
  · rw [← h.outstanding] at hout
    have hwaiting : t.port.waiting.length = rest.length + 1 := by rw [h.waiting, hw, List.length_cons]
    have hone : [(⟨f.byte 0, f.byte 1, k, b⟩ : Reply)].countP (fun r => r.completion != .queueFull) = 1 := by simp [hk]
    simp only [State.outstanding, hwaiting] at hout
    simp only [State.outstanding, State.answered, List.countP_append, hone]
    omega
  · rw [← h.queueFull] at hfull
    have hnone : [(⟨f.byte 0, f.byte 1, k, b⟩ : Reply)].countP (fun r => r.completion == .queueFull) = 0 := by simp [hk]
    simpa only [queueFullReplies, State.answered, List.countP_append, hnone, Nat.add_zero] using hfull
  · rw [← h.dropped] at hdropped
    exact hdropped

/-- A parked fence leaves the waiting list for the pending one: as many requests are outstanding. -/
theorem stepKeeps_parked {s : State} {f : Frame} {rest : List Frame} (p : PendingFence)
    (h : s.port.fences.length < maxFences) (hw : s.port.waiting = f :: rest) :
    StepKeeps s { s with port := { s.port with fences := s.port.fences ++ [p], waiting := rest } } := by
  refine ⟨id, fun ⟨hout, _, hfull, hdropped⟩ => ⟨?_, ?_, hfull, hdropped⟩⟩
  · simp only [State.outstanding, hw, List.length_cons, List.length_append, List.length_nil] at hout ⊢
    omega
  · simp only [List.length_append, List.length_cons, List.length_nil]
    omega

theorem framingRefusal_ne_queueFull {f : Frame} {k : Completion} (h : f.framingRefusal = some k) : k ≠ .queueFull := by
  unfold Frame.framingRefusal at h
  repeat' split at h
  all_goals cases h
  all_goals decide

theorem execute_stepKeeps {s t : State} {row : RequestRow} {act : Frame → State → State × Answer}
    (hact : ∀ f, ActKeeps s (act f s)) (h : s.execute row act = .next t) : StepKeeps s t := by
  rcases execute_cases s row act with
    he | ⟨f, rest, hw, -, -, ⟨k, hk, he⟩ | ⟨-, u, ha, he⟩ | ⟨-, u, k, b, ha, he⟩⟩ <;>
    rw [h] at he <;> cases he
  · exact (Keeps.refl s).stepKeeps
  · exact stepKeeps_answered (.refl s) (framingRefusal_ne_queueFull hk) hw
  · have := hact f
    rw [ha] at this
    cases this with
    | parks p hp => exact stepKeeps_parked p hp hw
  · have := hact f
    rw [ha] at this
    cases this with
    | answers hkeep hk => exact stepKeeps_answered hkeep hk hw

/-! ## Frames, the reset line and power-on -/

theorem stepKeeps_refuseFrame (s : State) (f : Frame) : StepKeeps s (s.refuseFrame f) := by
  unfold State.refuseFrame
  split
  · exact ⟨id, fun ⟨hout, hfences, hfull, _⟩ => ⟨hout, hfences, hfull, min_le_left _ _⟩⟩
  next h =>
    refine ⟨id, fun ⟨hout, hfences, _, _⟩ => ⟨?_, hfences, ?_, Nat.zero_le _⟩⟩
    · simpa [State.outstanding, State.post, List.countP_append] using hout
    · simp only [queueFullReplies] at h
      simp only [queueFullReplies, State.post, List.countP_append, List.countP_singleton, beq_self_eq_true, if_true]
      omega

theorem execFrameArrival_stepKeeps {s t : State} {strobed : List Byte} (h : execFrameArrival strobed s = .next t) :
    StepKeeps s t := by
  unfold execFrameArrival at h
  split at h
  · cases h
    exact (Keeps.refl s).stepKeeps
  · split at h
    · cases h
      exact ⟨id, id⟩
    · split at h
      · cases h
        exact (Keeps.refl s).stepKeeps
      · dsimp only at h
        split at h
        next hroom =>
          cases h
          refine ⟨id, fun ⟨_, hfences, hfull, hdropped⟩ => ⟨?_, hfences, hfull, hdropped⟩⟩
          simp only [State.outstanding, List.length_append, List.length_cons, List.length_nil] at hroom ⊢
          omega
        next =>
          cases h
          exact stepKeeps_refuseFrame s _

theorem execSendCompletion_stepKeeps {s t : State} (h : execSendCompletion s = .next t) : StepKeeps s t := by
  unfold execSendCompletion at h
  cases h
  split
  · exact (Keeps.refl s).stepKeeps
  · have htail : ∀ p : Reply → Bool, s.port.outbound.tail.countP p ≤ s.port.outbound.countP p :=
      fun p => (List.tail_sublist _).countP_le
    refine ⟨id, fun ⟨hout, hfences, hfull, hdropped⟩ => ⟨?_, hfences, (htail _).trans hfull, hdropped⟩⟩
    have := htail fun r => r.completion != .queueFull
    simp only [State.outstanding] at hout ⊢
    omega

theorem reset_fieldsInRange : State.reset.FieldsInRange := by
  refine ⟨by decide, by decide, fun c f hf => ?_, ⟨by decide, by decide⟩, (Counters.inRange_iff _).2 (by decide), by decide⟩
  simp [State.fiche, State.reset, Composer.initial, Vector.get_eq_getElem] at hf

theorem reset_linkInBounds : State.reset.LinkInBounds := ⟨by decide, by decide, by decide, by decide⟩

/-- The reset line leaves every item of the ranges but the counters at its power-on value. -/
theorem execResetLine_stepKeeps {s t : State} (h : execResetLine s = .next t) : StepKeeps s t := by
  unfold execResetLine at h
  cases h
  obtain ⟨hcls, hnext, hserial, hport, -, hfilm⟩ := reset_fieldsInRange
  exact ⟨fun ⟨_, _, _, _, hcount, _⟩ => ⟨hcls, hnext, hserial, hport, hcount, hfilm⟩, fun _ => reset_linkInBounds⟩

theorem execPowerOn_stepKeeps {s t : State} (h : execPowerOn s = .next t) : StepKeeps s t := by
  unfold execPowerOn at h
  cases h
  exact ⟨fun _ => reset_fieldsInRange, fun _ => reset_linkInBounds⟩

/-! ## The image port, storage and the image wait -/

theorem execImageByteTaken_keeps {s t : State} {byte : Byte} (h : execImageByteTaken byte s = .next t) : Keeps s t := by
  unfold execImageByteTaken at h
  split at h
  · cases h
    exact .refl s
  · split at h
    · cases h
      split
      · exact keeps_intake s _
      · exact .refl s
    · cases h
      exact .refl s
    · dsimp only at h
      split at h
      · cases h
        exact keeps_intake s _
      · split at h
        · cases h
          exact .of_same rfl rfl rfl rfl
        · cases h
          exact .refl s
    · cases h
      split
      · exact keeps_intake s _
      · exact .refl s

theorem execImageHeader_keeps {s t : State} {byte : Byte} (h : execImageHeader byte s = .next t) : Keeps s t := by
  unfold execImageHeader at h
  split at h <;> cases h
  · split
    · exact keeps_judgeHeader s _
    · exact .refl s
  all_goals exact .refl s

theorem execImageEnd_keeps {s t : State} {byte : Byte} (h : execImageEnd byte s = .next t) : Keeps s t := by
  unfold execImageEnd at h
  split at h
  · dsimp only at h
    split at h <;> cases h
    · exact (keeps_conclude _ _).after ((keeps_endTransfer _ _ _).after (.of_same rfl rfl rfl rfl))
    · exact .refl s
  all_goals
    cases h
    exact .refl s

theorem execDiscardingEnd_keeps {s t : State} {byte : Byte} (h : execDiscardingEnd byte s = .next t) : Keeps s t := by
  unfold execDiscardingEnd at h
  split at h <;> cases h
  · split
    · exact keeps_intake s _
    · exact .refl s
  all_goals exact .refl s

theorem execStorageUpset_keeps {s t : State} {buffer row group bit : Nat}
    (h : execStorageUpset buffer row group bit s = .next t) : Keeps s t := by
  unfold execStorageUpset at h
  split at h <;> cases h
  exact .of_same rfl rfl rfl rfl

theorem execImageWaitExpiry_keeps {s t : State} {n : Nat} (h : execImageWaitExpiry n s = .next t) : Keeps s t := by
  unfold execImageWaitExpiry at h
  split at h
  · cases h
  · split at h <;> cases h
    · exact (keeps_conclude _ _).after (keeps_expireImageWait s _)
    · exact .refl s

/-! ## The gate and the lamp -/

/-- A grant takes one of the film count. -/
theorem keeps_grant (s : State) (l : LaneId) (c : CtxId) (rest : List CtxId) (a : Arbiter) :
    Keeps s (s.grant l c rest a) := by
  have hqueue : Keeps s ((s.setQueue l rest).modifyFiche c fun f => { f with state := .exposing, cellsDone := 0 }) :=
    (keeps_modifyFiche _ c (by intro; rfl)).after (keeps_setQueue s l rest)
  refine hqueue.trans (.of_port rfl fun hs => ?_)
  obtain ⟨hcls, hnext, hserial, hport, hcount, hfilm⟩ := hs
  exact ⟨hcls, hnext, hserial, hport, hcount, (Nat.sub_le _ _).trans hfilm⟩

theorem execGrantDecision_keeps {s t : State} (h : execGrantDecision s = .next t) : Keeps s t := by
  unfold execGrantDecision at h
  split at h
  · cases h
    exact .refl s
  · dsimp only at h
    split at h
    · cases h
      exact .refl s
    · split at h
      · cases h
        exact .refl s
      · cases h
        exact (keeps_conclude _ _).after (keeps_grant s _ _ _ _)

theorem execAdvanceDone_keeps {s t : State} (h : execAdvanceDone s = .next t) : Keeps s t := by
  unfold execAdvanceDone at h
  split at h
  · split at h
    next f hf =>
      cases h
      refine (keeps_enterGate _ _ _).after ?_
      split
      · exact keeps_setContext_sameSerial hf rfl
      · exact .refl s
    next =>
      cases h
      exact .refl s
  all_goals
    cases h
    exact .refl s

theorem execTitleDone_keeps {s t : State} (h : execTitleDone s = .next t) : Keeps s t := by
  unfold execTitleDone at h
  split at h <;> cases h
  · exact keeps_reachFrom s _ _
  all_goals exact .refl s

theorem keeps_cellIsDone (s : State) (c : CtxId) : Keeps s (s.cellIsDone c) := keeps_modifyFiche s c fun _ => rfl

theorem execCellDone_keeps {s t : State} (h : execCellDone s = .next t) : Keeps s t := by
  unfold execCellDone at h
  split at h <;> cases h
  · exact (keeps_reachFrom _ _ _).after (keeps_cellIsDone s _)
  all_goals exact .refl s

theorem execIndexCellDone_keeps {s t : State} (h : execIndexCellDone s = .next t) : Keeps s t := by
  unfold execIndexCellDone at h
  split at h
  · dsimp only at h
    split at h <;> cases h
    · split <;> exact (keeps_enterGate _ _ _).after (keeps_cellIsDone s _)
    · exact .refl s
  all_goals
    cases h
    exact .refl s

theorem execCutCompletion_keeps {s t : State} (h : execCutCompletion s = .next t) : Keeps s t := by
  unfold execCutCompletion at h
  split at h
  · split at h
    next f hf =>
      cases h
      exact (keeps_conclude _ _).after ((keeps_stallTest _).after ((keeps_gate _ (by exact id)).after
        ((keeps_settleFences _ _ _).after ((keeps_setLaneFlag _ _ _).after (keeps_setContext_sameSerial hf rfl)))))
    next =>
      cases h
      exact .refl s
  all_goals
    cases h
    exact .refl s

theorem execSpoilCompletion_keeps {s t : State} (h : execSpoilCompletion s = .next t) : Keeps s t := by
  unfold execSpoilCompletion at h
  split at h <;> cases h
  · exact (keeps_conclude _ _).after (keeps_gate s (by exact id))
  all_goals exact .refl s

theorem execLampStable_keeps {s t : State} (h : execLampStable s = .next t) : Keeps s t := by
  unfold execLampStable at h
  cases h
  split
  · exact .refl s
  · exact keeps_gate s (by exact id)

theorem execLampFault_keeps {s t : State} (h : execLampFault s = .next t) : Keeps s t := by
  unfold execLampFault at h
  split at h
  · cases h
    exact .refl s
  · split at h
    · cases h
      exact .refl s
    · cases h
      exact keeps_setFlag s (by decide)
    all_goals
      split at h <;> cases h
      · exact (keeps_conclude _ _).after ((keeps_spoilExposure _ _).after (keeps_lampFails s))
      · exact keeps_lampFails s

theorem execJam_keeps {s t : State} (h : execJam s = .next t) : Keeps s t := by
  unfold execJam at h
  cases h
  split
  · exact .refl s
  · exact (keeps_conclude _ _).after (keeps_stopTransport s)

theorem execDoorOpen_keeps {s t : State} (h : execDoorOpen s = .next t) : Keeps s t := by
  unfold execDoorOpen at h
  split at h <;> cases h
  · exact .refl s
  · exact (keeps_conclude _ _).after ((keeps_gate _ fun _ => Nat.zero_le _).after (keeps_stopTransport s))

theorem execWarmUpExpiry_keeps {s t : State} (h : execWarmUpExpiry s = .next t) : Keeps s t := by
  unfold execWarmUpExpiry at h
  cases h
  split
  · exact keeps_lampFails s
  · exact .refl s

theorem execStandbyExpiry_keeps {s t : State} (h : execStandbyExpiry s = .next t) : Keeps s t := by
  unfold execStandbyExpiry at h
  cases h
  split
  · exact (keeps_conclude _ _).after (keeps_gate s (by exact id))
  · exact .refl s

/-! ## The step -/

theorem exec_stepKeeps {s t : State} {c : Instr} (h : exec c s = .next t) : StepKeeps s t := by
  cases c with
  | defineLane => exact execute_stepKeeps (actKeeps_defineLane · s) h
  | mapClass => exact execute_stepKeeps (actKeeps_mapClass · s) h
  | lookup => exact execute_stepKeeps (actKeeps_lookup · s) h
  | findNext => exact execute_stepKeeps (actKeeps_findNext · s) h
  | amend => exact execute_stepKeeps (actKeeps_amend · s) h
  | withdraw => exact execute_stepKeeps (actKeeps_withdraw · s) h
  | purge => exact execute_stepKeeps (actKeeps_purge · s) h
  | place => exact execute_stepKeeps (actKeeps_place · s) h
  | openFiche => exact execute_stepKeeps (actKeeps_openFiche · s) h
  | readFiche => exact execute_stepKeeps (actKeeps_readFiche · s) h
  | close => exact execute_stepKeeps (actKeeps_close · s) h
  | fence => exact execute_stepKeeps (actKeeps_fence · s) h
  | requeue => exact execute_stepKeeps (actKeeps_requeue · s) h
  | release => exact execute_stepKeeps (actKeeps_release · s) h
  | loadArbitration => exact execute_stepKeeps (actKeeps_loadArbitration · s) h
  | loadCurve => exact execute_stepKeeps (actKeeps_loadCurve · s) h
  | setFilm => exact execute_stepKeeps (actKeeps_setFilm · s) h
  | setStandby => exact execute_stepKeeps (actKeeps_setStandby · s) h
  | lampOn => exact execute_stepKeeps (actKeeps_lampOn · s) h
  | lampOff => exact execute_stepKeeps (actKeeps_lampOff · s) h
  | lampClear => exact execute_stepKeeps (actKeeps_lampClear · s) h
  | readStatus => exact execute_stepKeeps (actKeeps_readStatus · s) h
  | readAttention => exact execute_stepKeeps (actKeeps_readAttention · s) h
  | setAttentionMask => exact execute_stepKeeps (actKeeps_setAttentionMask · s) h
  | readCounters => exact execute_stepKeeps (actKeeps_readCounters · s) h
  | reset => exact execute_stepKeeps (actKeeps_softReset · s) h
  | unknownRequest => exact execute_stepKeeps (actKeeps_unknownRequest · s) h
  | frameArrival strobed => exact execFrameArrival_stepKeeps h
  | sendCompletion => exact execSendCompletion_stepKeeps h
  | resetLine => exact execResetLine_stepKeeps h
  | resetLineRelease select =>
    simp only [exec, execResetLineRelease] at h
    cases h
    split <;> exact ⟨id, id⟩
  | powerOn => exact execPowerOn_stepKeeps h
  | imageHeader byte => exact (execImageHeader_keeps h).stepKeeps
  | imageEnd byte => exact (execImageEnd_keeps h).stepKeeps
  | discardingEnd byte => exact (execDiscardingEnd_keeps (byte := byte) h).stepKeeps
  | imageAbort =>
    cases h
    exact ⟨id, id⟩
  | imageWaitExpiry n => exact (execImageWaitExpiry_keeps h).stepKeeps
  | grantDecision => exact (execGrantDecision_keeps h).stepKeeps
  | advanceDone => exact (execAdvanceDone_keeps h).stepKeeps
  | titleDone => exact (execTitleDone_keeps h).stepKeeps
  | cellDone => exact (execCellDone_keeps h).stepKeeps
  | indexCellDone => exact (execIndexCellDone_keeps h).stepKeeps
  | cutCompletion => exact (execCutCompletion_keeps h).stepKeeps
  | spoilCompletion => exact (execSpoilCompletion_keeps h).stepKeeps
  | lampStable => exact (execLampStable_keeps h).stepKeeps
  | lampFault => exact (execLampFault_keeps h).stepKeeps
  | jam => exact (execJam_keeps h).stepKeeps
  | doorOpen => exact (execDoorOpen_keeps h).stepKeeps
  | warmUpExpiry => exact (execWarmUpExpiry_keeps h).stepKeeps
  | standbyExpiry => exact (execStandbyExpiry_keeps h).stepKeeps
  | storageUpset buffer row group bit => exact (execStorageUpset_keeps h).stepKeeps
  | imageByteTaken byte => exact (execImageByteTaken_keeps h).stepKeeps
  | imageAbortRelease =>
    cases h
    exact ⟨id, id⟩

/-- A second changes timers alone. -/
theorem second_keeps (s : State) : Keeps s s.second := by
  refine .of_port rfl fun hs => ?_
  obtain ⟨hcls, hnext, hserial, hport, hcount, hfilm⟩ := hs
  refine ⟨hcls, hnext, fun c f hf => ?_, hport, hcount, hfilm⟩
  have hmap : s.second.fiche c = (s.fiche c).map fun f => { f with timer := countDown f.timer } := by
    simp [State.fiche, State.second, Vector.get_eq_getElem]
  rw [hmap] at hf
  obtain ⟨g, hg, rfl⟩ := Option.map_eq_some_iff.1 hf
  exact hserial c g hg

theorem step_stepKeeps {s t : State} (h : step s = .next t) : StepKeeps s t := by
  unfold step at h
  split at h
  · cases h
    exact (second_keeps s).stepKeeps
  next c rest _ => exact exec_stepKeeps (s := { s with pending := rest }) h

/-- Settles O56: every update of a step keeps both invariants, request by request and event by event. -/
theorem stepKeepsRangesAndLimits : Obligations.StepKeepsRangesAndLimits :=
  ⟨fun _ _ hs h => (step_stepKeeps h).1 hs, fun _ _ hs h => (step_stepKeeps h).2 hs⟩

end Sys2Proof.Machine
end

section
/-! SUPPORT. The Lane Table's requests: MAP CLASS (R17) and DEFINE LANE (R11 to R15). -/
namespace Sys2Proof.Machine

/-! ## MAP CLASS -/

theorem mapClass_refused {f : Frame} {s : State}
    (h : 16 ≤ field f.body 0 1 ∨ 4 ≤ field f.body 1 1 ∨ (field f.body 0 1 = 0 ∧ field f.body 1 1 ≠ 0)) :
    mapClass f s = s.refuse .malformed := by
  unfold mapClass
  split
  next c l hc hl =>
    rcases h with h | h | ⟨hzero, hlane⟩
    · rw [classOf_eq_none_iff.2 h] at hc
      cases hc
    · rw [laneOf_eq_none_iff.2 h] at hl
      cases hl
    · refine if_pos ⟨Fin.ext ?_, ?_⟩
      · rw [← classOf_eq_some_iff.1 hc, hzero]
        rfl
      · rintro rfl
        exact hlane (laneOf_eq_some_iff.1 hl)
  next => rfl

theorem mapClass_mapped {f : Frame} {s : State} {c : Fin 16} {l : LaneId} (hc : field f.body 0 1 = c.val)
    (hl : field f.body 1 1 = l.val) (h0 : c = 0 → l = 0) :
    mapClass f s = ({ s with laneTable := { s.laneTable with classMap := s.laneTable.classMap.set c.val l } },
      some (.ok, bytesOf 1 c.val ++ bytesOf 1 l.val ++ bytesOf 1 (s.laneTable.classMap.get c).val)) := by
  simp only [mapClass, classOf_eq_some_iff.2 hc, laneOf_eq_some_iff.2 hl]
  exact if_neg fun h => h.2 (h0 h.1)

/-- Settles O9: the three MALFORMED cases and the mapping, each executed. -/
theorem mapClassSetsOneEntry : Obligations.MapClassSetsOneEntry := by
  intro s f rest hx
  exact ⟨fun h => execute_answered hx (mapClass_refused h),
    fun c l hc hl h0 => execute_answered hx (mapClass_mapped hc hl h0)⟩

/-! ## DEFINE LANE -/

/-- A selector or an item of the title template is out of range (R11, R12). -/
def LaneOutOfRange (body : List Byte) : Prop :=
  4 ≤ field body 0 1 ∨ 2 ≤ field body 1 1 ∨ field body 2 1 = 0 ∨ 5 ≤ field body 2 1 ∨
    4 ≤ field body 3 1 ∨ 2 ≤ field body 4 1 ∨ 41 ≤ field body 5 1 ∨ 4 ≤ field body 6 1 ∨
    41 ≤ field body 7 1 ∨ 4 ≤ field body 8 1 ∨ 3 ≤ field body 10 1 ∨
    (field body 10 1 ≠ 0 ∧ 40 ≤ field body 11 1) ∨ 2 ≤ field body 12 1 ∨
    (field body 12 1 = 1 ∧ 1000000 ≤ field body 13 3) ∨ 2 ≤ field body 16 1 ∨ 4 ≤ field body 17 1

/-- Each item out of range, as what its reader answers. -/
theorem laneOutOfRange_iff {body : List Byte} : LaneOutOfRange body ↔
    laneOf (field body 0 1) = none ∨ yesNoOf (field body 1 1) = none ∨ formatOf (field body 2 1) = none ∨
      laneOf (field body 3 1) = none ∨ splitOf (field body 4 1) = none ∨ ¬field body 5 1 ≤ 40 ∨
      titleSizeOf (field body 6 1) = none ∨ ¬field body 7 1 ≤ 40 ∨ titleSizeOf (field body 8 1) = none ∨
      serialPositionOf (field body 10 1) (field body 11 1) = none ∨
      serialActionOf (field body 12 1) (field body 13 3) = none ∨ polarityOf (field body 16 1) = none ∨
      laneOf (field body 17 1) = none := by
  simp only [LaneOutOfRange, laneOf_eq_none_iff, yesNoOf_eq_none_iff, formatOf_eq_none_iff, splitOf_eq_none_iff,
    titleSizeOf_eq_none_iff, serialPositionOf_eq_none_iff, serialActionOf_eq_none_iff, polarityOf_eq_none_iff, not_le,
    or_assoc, Nat.succ_le_iff]

theorem laneDefOf_eq_none_iff {body : List Byte} : laneDefOf body = none ↔ LaneOutOfRange body := by
  rw [laneOutOfRange_iff]
  constructor
  · intro h
    by_contra hin
    simp only [not_or, not_not, ← ne_eq, Option.ne_none_iff_exists'] at hin
    obtain ⟨⟨l, hl⟩, ⟨enabled, henabled⟩, ⟨format, hformat⟩, ⟨k, hk⟩, ⟨split, hsplit⟩, hlength1, ⟨size1, hsize1⟩,
      hlength2, ⟨size2, hsize2⟩, ⟨position, hposition⟩, ⟨action, haction⟩, ⟨polarity, hpolarity⟩, curve, hcurve⟩ := hin
    have hcarries : CarriesLane body l action
        ⟨enabled, format, k, split, ⟨_, size1⟩, ⟨_, size2⟩, _, position, polarity, curve, _, _, _⟩ :=
      ⟨hl, henabled, hformat, hk, hsplit, hsize1, hsize2, hlength1, hlength2, hposition, haction, hpolarity, hcurve,
        rfl, rfl, rfl, rfl, rfl, rfl⟩
    rw [laneDefOf_eq_some_iff.2 hcarries] at h
    cases h
  · intro hout
    refine Option.eq_none_iff_forall_ne_some.2 fun ⟨l, action, d⟩ hd => ?_
    have hc := laneDefOf_eq_some_iff.1 hd
    simp [hc.lane, hc.enabled, hc.format, hc.k, hc.split, hc.size1, hc.size2, hc.length1, hc.length2, hc.position,
      hc.action, hc.polarity, hc.curve] at hout

theorem laneBusy_eq_true_iff {s : State} {l : LaneId} {enabled sets : Bool} : s.laneBusy l enabled sets = true ↔
    (enabled = false ∧ ∃ c x, s.fiche c = some x ∧ x.lane = l) ∨ (sets = true ∧ s.composingContext l ≠ none) := by
  simp [State.laneBusy, Option.any_eq_true, Option.isSome_iff_ne_none]

/-- R42. -/
theorem composingContext_ne_none_iff {s : State} {l : LaneId} : s.composingContext l ≠ none ↔
    ∃ c x, s.fiche c = some x ∧ x.lane = l ∧ x.state = .composing := by
  simp [State.composingContext, Option.any_eq_true, and_assoc, and_comm]

theorem defineLane_refused {f : Frame} {s : State} (h : LaneOutOfRange f.body) : defineLane f s = s.refuse .malformed := by
  simp only [defineLane, laneDefOf_eq_none_iff.2 h]

theorem defineLane_busy {f : Frame} {s : State} {l : LaneId} {action : Option Nat} {d : LaneDef}
    (h : CarriesLane f.body l action d) (hb : s.laneBusy l d.enabled action.isSome = true) :
    defineLane f s = s.refuse .busy := by
  simp only [defineLane, laneDefOf_eq_some_iff.2 h, hb, if_true]

/-- Settles O8: MALFORMED when no definition can be read, and BUSY by the definition read. -/
theorem defineLaneRefusals : Obligations.DefineLaneRefusals := by
  intro s f rest outOfRange hx hout
  refine ⟨fun h => execute_answered hx (defineLane_refused (hout.1 h)), fun hin l hl hbusy => ?_⟩
  obtain ⟨⟨l', action, d⟩, hd⟩ := Option.ne_none_iff_exists'.1 (mt laneDefOf_eq_none_iff.1 (mt hout.2 hin))
  have hc := laneDefOf_eq_some_iff.1 hd
  have hll : l' = l := by
    have := laneOf_eq_some_iff.1 hc.lane
    exact Fin.ext (by omega)
  subst hll
  refine execute_answered hx (defineLane_busy hc (laneBusy_eq_true_iff.2 ?_))
  rcases hbusy with ⟨hoff, hlive⟩ | ⟨hset, hcomposing⟩
  · left
    have henabled := yesNoOf_eq_some_iff.1 hc.enabled
    refine ⟨?_, hlive⟩
    cases h : d.enabled <;> simp [h, hoff] at henabled ⊢
  · right
    exact ⟨(isSome_of_serialActionOf hc.action).2 hset, composingContext_ne_none_iff.2 hcomposing⟩

theorem replacedCount_eq (t : Text) : replacedCount t = t.countP fun c => decide (c < 32 ∨ 126 < c) := by
  refine List.countP_congr fun c _ => ?_
  unfold printable
  split <;> simp <;> omega

/-- A DEFINE LANE that is not refused. -/
theorem defineLane_stored {f : Frame} {s : State} {l : LaneId} {action : Option Nat} {d : LaneDef}
    (h : CarriesLane f.body l action d) (hb : s.laneBusy l d.enabled action.isSome = false) :
    ∃ column, (∀ p, d.serialPosition = some p → column = BitVec.ofNat 8 p.column) ∧
      defineLane f s = ({ s.setLane l ⟨action.getD (s.lane l).nextSerial, some d⟩ with
          free := s.free + if d.serialPosition = none then 1 else 0 },
        some (.ok, laneDefBytes l d column (action.getD (s.lane l).nextSerial) ++ adjustmentBytes f.body)) := by
  simp only [defineLane, laneDefOf_eq_some_iff.2 h, hb, Bool.false_eq_true, if_false, State.columnByte]
  cases hp : d.serialPosition with
  | none => exact ⟨Config.freeByte s.free, by simp, rfl⟩
  | some p => exact ⟨BitVec.ofNat 8 p.column, by simp, rfl⟩

/-- The reply's definition and adjustments, each item with its bytes (R15, R188). -/
theorem laneReply_eq (body : List Byte) (l : LaneId) (d : LaneDef) (column : Byte) (n : Nat) :
    laneDefBytes l d column n ++ adjustmentBytes body =
      bytesOf 1 l.val ++ [if d.enabled then 1 else 0] ++ bytesOf 1 d.format.code ++ bytesOf 1 d.k.val ++
        bytesOf 1 d.split.code ++ bytesOf 1 d.line1.text.length ++ bytesOf 1 d.line1.size.code ++
        bytesOf 1 d.line2.text.length ++ bytesOf 1 d.line2.size.code ++ bytesOf 1 d.spacing ++
        (match d.serialPosition with
          | none => ([0] : List Byte)
          | some p => if p.line = .line1 then [1] else [2]) ++
        [column] ++ [0] ++ bytesOf 3 n ++ bytesOf 1 d.polarity.code ++ bytesOf 1 d.curve.val ++ bytesOf 2 d.gain ++
        bytesOf 2 d.bias ++ bytesOf 1 d.imageWait ++
        d.line1.text.map (BitVec.ofNat 8) ++ d.line2.text.map (BitVec.ofNat 8) ++
        bytesOf 1 (if field body 18 2 < 128 then 1 else if 4095 < field body 18 2 then 2 else 0) ++
        [if 2047 < field body 20 2 then 1 else 0] ++ [if 15 < field body 9 1 then 1 else 0] ++
        bytesOf 1 ((fieldText body 23 (field body 5 1) ++
          fieldText body (23 + field body 5 1) (field body 7 1)).countP fun c => decide (c < 32 ∨ 126 < c)) := by
  unfold laneDefBytes
  generalize d.serialPosition = position
  simp only [adjustmentBytes, bit, textBytes, carriedTitles, replacedCount_eq, decide_eq_true_eq, List.append_assoc]
  rcases position with _ | ⟨_ | _, position⟩
  all_goals rfl

/-- Settles O7: the premises are a body that carries the definition; it is stored and its reply's items are read off. -/
theorem defineLaneStoresDefinition : Obligations.DefineLaneStoresDefinition := by
  refine ⟨⟨fun _ _ => yesNoOf_eq_some_iff, fun _ _ => formatOf_eq_some_iff, fun _ _ => splitOf_eq_some_iff,
    fun _ _ => titleSizeOf_eq_some_iff, fun _ _ => polarityOf_eq_some_iff, rfl, rfl, rfl, rfl,
    fun column => ⟨rfl, fun h => ?_⟩, fun value => ⟨rfl, fun h => if_pos h⟩⟩, ?_⟩
  · exact ⟨if_pos h, if_pos h⟩
  · intro s f rest l enabled format k curve split size1 size2 position action polarity text1 text2 hx ht1 ht2 hl henabled
      hformat hk hsplit hlength1 hsize1 hlength2 hsize2 hposition haction hpolarity hcurve hlive hcomposing
    have hc : CarriesLane f.body l action
        { enabled := enabled, format := format, k := k, split := split
          line1 := ⟨text1, size1⟩, line2 := ⟨text2, size2⟩
          spacing := min 15 (field f.body 9 1), serialPosition := position, polarity := polarity
          curve := curve, gain := max 128 (min 4095 (field f.body 18 2)), bias := min 2047 (field f.body 20 2)
          imageWait := field f.body 22 1 } :=
      ⟨laneOf_eq_some_iff.2 hl, henabled, hformat, laneOf_eq_some_iff.2 hk, hsplit, hsize1, hsize2, hlength1, hlength2,
        hposition, haction, hpolarity, laneOf_eq_some_iff.2 hcurve, ht1, ht2, rfl, rfl, rfl, rfl⟩
    have hidle : s.laneBusy l enabled action.isSome = false := by
      rw [← Bool.not_eq_true, laneBusy_eq_true_iff]
      rintro (⟨hoff, c, x, hcx, hxl⟩ | ⟨hset, hne⟩)
      · exact hlive hoff c x hcx hxl
      · exact hne (hcomposing (by simpa [Option.isSome_iff_ne_none] using hset))
    obtain ⟨column, hcolumn, hdefine⟩ := defineLane_stored hc hidle
    refine ⟨column, hcolumn, ?_⟩
    refine (execute_answered hx hdefine).trans ?_
    rw [laneReply_eq]
    rfl

end Sys2Proof.Machine
end

section
/-! SUPPORT. Decimal numbers and serials in printed text, and the title lines of a fiche (R7, R46, R110). -/
namespace Sys2Proof.Machine

/-! ## Decimal numbers -/

@[simp] theorem decimal_length (width n : Nat) : (decimal width n).length = width := by simp [decimal]

theorem decimal_getElem? {width n i : Nat} (h : i < width) :
    (decimal width n)[i]? = some (48 + n / 10 ^ (width - 1 - i) % 10) := by simp [decimal, h]

/-! ## The serial in a title line -/

/-- A text extended with spaces to a column. -/
theorem padded_getElem? {text : Text} {column j : Nat} (h : j < max text.length column) :
    (text ++ List.replicate (column - text.length) 32)[j]? = some (text[j]?.getD 32) := by
  by_cases hj : j < text.length
  · simp [List.getElem?_append_left hj, List.getElem?_eq_getElem hj]
  · have hpad : j - text.length < column - text.length := by omega
    have hnone : text[j]? = none := List.getElem?_eq_none (by omega)
    rw [List.getElem?_append_right (by omega), hnone, List.getElem?_replicate, if_pos hpad, Option.getD_none]

theorem writeSerial_length {text : Text} {column serial : Nat} (hcolumn : column ≤ 39) :
    (writeSerial text column serial).length = max text.length (min 40 (column + 6)) := by
  simp only [writeSerial, List.length_append, List.length_take, List.length_drop, List.length_replicate, decimal_length]
  omega

/-- Before the column, in the digits, and after them (R110). -/
theorem writeSerial_getElem? {text : Text} {column serial j : Nat} (htext : text.length ≤ 40) (hcolumn : column ≤ 39)
    (hj : j < max text.length (min 40 (column + 6))) :
    (writeSerial text column serial)[j]? = some
      (if column ≤ j ∧ j < column + 6 then 48 + serial / 10 ^ (5 - (j - column)) % 10 else text[j]?.getD 32) := by
  have hbefore : ((text ++ List.replicate (column - text.length) 32).take column).length = column := by
    simp only [List.length_take, List.length_append, List.length_replicate]
    omega
  have hdigits : ((decimal 6 serial).take (40 - column)).length = min 6 (40 - column) := by
    rw [List.length_take, decimal_length]
    omega
  simp only [writeSerial]
  by_cases hlow : j < column
  · rw [if_neg (by omega), List.append_assoc, List.getElem?_append_left (by omega), List.getElem?_take_of_lt hlow]
    exact padded_getElem? (by omega)
  · by_cases hhigh : j < column + 6
    · rw [if_pos (by omega), List.getElem?_append_left (by rw [List.length_append]; omega),
        List.getElem?_append_right (by omega), hbefore, List.getElem?_take_of_lt (by omega)]
      exact decimal_getElem? (by omega)
    · rw [if_neg (by omega), List.getElem?_append_right (by rw [List.length_append]; omega), List.length_append, hbefore,
        hdigits, List.getElem?_drop, ← padded_getElem? (column := column) (by omega)]
      congr 1
      omega

/-- Settles O24: the template's lines by its serial position, then the line with the serial, character by character. -/
theorem serialIsWrittenIntoTitleLine : Obligations.SerialIsWrittenIntoTitleLine := by
  refine ⟨fun d serial => ⟨fun hp => ?_, fun column hp => ?_, fun column hp => ?_⟩,
    fun text column serial htext hcolumn => ⟨writeSerial_length hcolumn, fun j hj => writeSerial_getElem? htext hcolumn hj⟩⟩
  · cases h : d.line2.text <;> simp [LaneDef.titleLines, LaneDef.line2Present, hp, h]
  · cases h : d.line2.text <;> simp [LaneDef.titleLines, LaneDef.line2Present, hp, h]
  · simp [LaneDef.titleLines, LaneDef.line2Present, hp]

/-! ## Contexts and lanes -/

/-- The first index that passes is the least. -/
theorem find?_finRange_eq_some_iff {n : Nat} {p : Fin n → Bool} {c : Fin n} :
    (List.finRange n).find? p = some c ↔ p c = true ∧ ∀ b < c, p b = false := by
  rw [List.find?_eq_some_iff_getElem]
  refine and_congr_right fun _ => ⟨?_, fun h => ⟨c.val, by simp, by simp, fun j hj => ?_⟩⟩
  · rintro ⟨i, hi, rfl, h⟩ b hb
    simpa using h b.val (by simpa [Fin.lt_def] using hb)
  · simpa using h ⟨j, hj.trans c.isLt⟩ hj

theorem lowestFree_eq_some_iff {s : State} {c : CtxId} :
    s.lowestFree = some c ↔ s.fiche c = none ∧ ∀ b < c, s.fiche b ≠ none := by
  simp [State.lowestFree, find?_finRange_eq_some_iff, Option.isNone_eq_false_iff, Option.isSome_iff_ne_none]

theorem lowestFree_eq_none_iff {s : State} : s.lowestFree = none ↔ ∀ c, s.fiche c ≠ none := by
  simp [State.lowestFree]

theorem fiche_of_composingContext {s : State} {l : LaneId} {c : CtxId} (h : s.composingContext l = some c) :
    ∃ x, s.fiche c = some x ∧ x.state = .composing ∧ x.lane = l := by
  have := List.find?_some h
  simpa [Option.any_eq_true, and_comm, and_assoc] using this

theorem composingContext_eq_none_iff {s : State} {l : LaneId} : s.composingContext l = none ↔
    ∀ c x, s.fiche c = some x → ¬(x.state = .composing ∧ x.lane = l) := by
  rw [← not_iff_not, ← ne_eq, composingContext_ne_none_iff]
  push Not
  simp only [and_comm]

theorem enabledLane_eq_some_iff {s : State} {l : LaneId} {d : LaneDef} :
    s.enabledLane l = some d ↔ (s.lane l).definition = some d ∧ d.enabled = true := by
  simp [State.enabledLane, Option.filter_eq_some_iff]

/-! ## The framing of an executed request -/

/-- An executed request has the body length of its row; the three LAMP rows have one length. -/
theorem expectedLength_of_executes {s : State} {row : RequestRow} {f : Frame} {rest : List Frame}
    (h : Executes s row f rest) : expectedLength row f.body = some f.body.length := by
  obtain ⟨-, -, hrow, hframing⟩ := h
  have hcode : expectedLength (rowOfCode (f.byte 0)) f.body = some f.body.length := by
    by_contra hne
    simp only [Frame.framingRefusal, hne, ne_eq, not_false_eq_true, if_true] at hframing
    split at hframing
    · cases hframing
    · split at hframing
      · cases hframing
      · split at hframing <;> cases hframing
  subst hrow
  unfold Frame.row
  dsimp only
  split
  next hlamp =>
    rw [hlamp.1] at hcode
    split <;> exact hcode
  next => exact hcode

theorem getElem?_of_field_one {body : List Byte} {offset n : Nat} (h : field body offset 1 = n) (hn : n ≠ 0) :
    body[offset]?.map BitVec.toNat = some n := by
  rw [field_one] at h
  cases hb : body[offset]? with
  | none => simp [hb] at h; omega
  | some b => simpa [hb] using h

/-- The lengths of the carried lines fill the body of an OPEN FICHE (R186). -/
theorem openFiche_bodyLength {body : List Byte} (h : expectedLength .openFiche body = some body.length) :
    (field body 1 1 = 1 → 5 + field body 2 1 = body.length) ∧
      (field body 1 1 = 2 → 7 + field body 2 1 + field body (4 + field body 2 1) 1 = body.length) := by
  constructor <;> intro hcount <;> simp only [expectedLength, getElem?_of_field_one hcount (by decide)] at h
  · obtain ⟨l1, hl1, h⟩ := Option.map_eq_some_iff.1 h
    rwa [field_one_of_getElem? hl1]
  · split at h
    · cases h
    next l1 hl1 =>
      obtain ⟨l2, hl2, h⟩ := Option.map_eq_some_iff.1 h
      rwa [field_one_of_getElem? hl1, field_one_of_getElem? hl2]

/-! ## Carried titles -/

theorem fieldText_length {body : List Byte} {offset length : Nat} (h : offset + length ≤ body.length) :
    (fieldText body offset length).length = length := by
  simp only [fieldText, List.length_map, List.length_take, List.length_drop]
  omega

theorem carriedLine_eq_some_iff {body : List Byte} {offset : Nat} {line : TitleLine} {n : Nat} :
    carriedLine body offset = some (line, n) ↔ field body offset 1 ≤ 40 ∧
      titleSizeOf (field body (offset + 1) 1) = some line.size ∧
      line.text = (fieldText body (offset + 2) (field body offset 1)).map printable ∧
      n = (fieldText body (offset + 2) (field body offset 1)).countP fun c => decide (c < 32 ∨ 126 < c) := by
  obtain ⟨text, size⟩ := line
  unfold carriedLine
  dsimp only
  split
  next h => simp; omega
  next h =>
    simp only [Option.map_eq_some_iff, replacedCount_eq, Prod.mk.injEq, TitleLine.mk.injEq]
    constructor
    · rintro ⟨size', hsize, ⟨rfl, rfl⟩, rfl⟩
      exact ⟨by omega, hsize, rfl, rfl⟩
    · rintro ⟨-, hsize, rfl, rfl⟩
      exact ⟨size, hsize, ⟨rfl, rfl⟩, rfl⟩

theorem carriedLine_eq_none_iff {body : List Byte} {offset : Nat} :
    carriedLine body offset = none ↔ 41 ≤ field body offset 1 ∨ 4 ≤ field body (offset + 1) 1 := by
  unfold carriedLine
  dsimp only
  split
  next h => simp; omega
  next h => simp [titleSizeOf_eq_none_iff]; omega

theorem carriedLine_first_eq_none_iff {body : List Byte} :
    carriedLine body 2 = none ↔ 41 ≤ field body 2 1 ∨ 4 ≤ field body 3 1 := carriedLine_eq_none_iff

theorem carriedLine_second_eq_none_iff {body : List Byte} {n : Nat} :
    carriedLine body (4 + n) = none ↔ 41 ≤ field body (4 + n) 1 ∨ 4 ≤ field body (5 + n) 1 := by
  rw [carriedLine_eq_none_iff, show 4 + n + 1 = 5 + n by omega]

/-- One carried line, whose characters the body holds. -/
theorem carriedTitlesOf_one {body : List Byte} (h : field body 1 1 = 1) (hlen : 4 + field body 2 1 ≤ body.length) :
    carriedTitlesOf body = (carriedLine body 2).map fun (l, n) =>
      some (carriedSpacing body (4 + field body 2 1) [l] n) := by
  simp only [carriedTitlesOf, h]
  refine Option.map_congr fun (l, n) hl => ?_
  obtain ⟨-, -, htext, -⟩ := carriedLine_eq_some_iff.1 hl
  simp only [htext, List.length_map, fieldText_length hlen]

/-- Two carried lines: the second stands after the first's characters. -/
theorem carriedTitlesOf_two {body : List Byte} (h : field body 1 1 = 2) (hlen : 4 + field body 2 1 ≤ body.length) :
    carriedTitlesOf body = (carriedLine body 2).bind fun (l, n) =>
      (carriedLine body (4 + field body 2 1)).map fun (l', n') =>
        some (carriedSpacing body (6 + field body 2 1 + l'.text.length) [l, l'] (n + n')) := by
  simp only [carriedTitlesOf, h]
  refine Option.bind_congr fun (l, n) hl => ?_
  obtain ⟨-, -, htext, -⟩ := carriedLine_eq_some_iff.1 hl
  simp only [htext, List.length_map, fieldText_length hlen, show 4 + field body 2 1 + 2 = 6 + field body 2 1 by omega]

theorem carriedTitlesOf_isSome {body : List Byte} (hcount : field body 1 1 ≤ 2)
    (hfirst : field body 1 1 ≠ 0 → field body 2 1 ≤ 40 ∧ field body 3 1 ≤ 3)
    (hsecond : field body 1 1 = 2 → 4 + field body 2 1 ≤ body.length ∧ field body (4 + field body 2 1) 1 ≤ 40 ∧
      field body (5 + field body 2 1) 1 ≤ 3) : ∃ titles, carriedTitlesOf body = some titles := by
  have hline : field body 1 1 ≠ 0 → ∃ x, carriedLine body 2 = some x := fun h => by
    obtain ⟨hlength, hsize⟩ := hfirst h
    exact Option.ne_none_iff_exists'.1 (mt carriedLine_first_eq_none_iff.1 (by omega))
  obtain h | h | h : field body 1 1 = 0 ∨ field body 1 1 = 1 ∨ field body 1 1 = 2 := by omega
  · exact ⟨none, by simp only [carriedTitlesOf, h]⟩
  · obtain ⟨x, hx⟩ := hline (by omega)
    simp [carriedTitlesOf, h, hx]
  · obtain ⟨x, hx⟩ := hline (by omega)
    obtain ⟨hlen, hlength, hsize⟩ := hsecond h
    obtain ⟨y, hy⟩ := Option.ne_none_iff_exists'.1
      (mt (carriedLine_second_eq_none_iff (body := body) (n := field body 2 1)).1 (by omega))
    simp [carriedTitlesOf_two h hlen, hx, hy]

theorem carriedTitlesOf_eq_none {body : List Byte} (hbody : expectedLength .openFiche body = some body.length)
    (h : 3 ≤ field body 1 1 ∨ (field body 1 1 ≠ 0 ∧ (41 ≤ field body 2 1 ∨ 4 ≤ field body 3 1)) ∨
      (field body 1 1 = 2 ∧ (41 ≤ field body (4 + field body 2 1) 1 ∨ 4 ≤ field body (5 + field body 2 1) 1))) :
    carriedTitlesOf body = none := by
  obtain ⟨hone, htwo⟩ := openFiche_bodyLength hbody
  obtain hcount | hcount | hcount | hcount :
    field body 1 1 = 0 ∨ field body 1 1 = 1 ∨ field body 1 1 = 2 ∨ 3 ≤ field body 1 1 := by omega
  · omega
  · have hline : carriedLine body 2 = none := carriedLine_first_eq_none_iff.2 (by omega)
    simp [carriedTitlesOf, hcount, hline]
  · have hlen := htwo hcount
    rw [carriedTitlesOf_two hcount (by omega)]
    rcases h with h | h | h
    · omega
    · rw [carriedLine_first_eq_none_iff.2 h.2, Option.bind_none]
    · have hline : carriedLine body (4 + field body 2 1) = none := carriedLine_second_eq_none_iff.2 h.2
      simp [hline]
  · unfold carriedTitlesOf
    split
    case h_4 => rfl
    all_goals omega

/-! ## OPEN FICHE -/

theorem openFiche_malformed {f : Frame} {s : State} (hbody : expectedLength .openFiche f.body = some f.body.length)
    (h : 4 ≤ field f.body 0 1 ∨ 3 ≤ field f.body 1 1 ∨
      (field f.body 1 1 ≠ 0 ∧ (41 ≤ field f.body 2 1 ∨ 4 ≤ field f.body 3 1)) ∨
      (field f.body 1 1 = 2 ∧
        (41 ≤ field f.body (4 + field f.body 2 1) 1 ∨ 4 ≤ field f.body (5 + field f.body 2 1) 1))) :
    openFiche f s = s.refuse .malformed := by
  unfold openFiche
  split
  next l titles hl htitles =>
    rcases h with h | h
    · rw [laneOf_eq_none_iff.2 h] at hl
      cases hl
    · rw [carriedTitlesOf_eq_none hbody h] at htitles
      cases htitles
  next => rfl

/-- An OPEN FICHE that opens a context. -/
theorem openFiche_opened {f : Frame} {s : State} {l : LaneId} {titles : Option CarriedTitles} {d : LaneDef} {c : CtxId}
    (hl : field f.body 0 1 = l.val) (htitles : carriedTitlesOf f.body = some titles) (hd : s.enabledLane l = some d)
    (hidle : s.composingContext l = none) (hc : s.lowestFree = some c) :
    openFiche f s = (s.openFiche c l d (titles.map fun t => (t.lines, t.spacing)),
      some (.ok, bytesOf 1 c.val ++ bytesOf 3 (s.lane l).nextSerial ++ bytesOf 1 d.format.code ++ bytesOf 1 d.k.val ++
        bytesOf 2 (indexCapacity d.format d.k) ++ bytesOf 3 (nextSerialAfter (s.lane l).nextSerial) ++
        mayBeAbsent 2 (titles.map fun t => bytesOf 1 t.replaced ++ bit t.lowered))) := by
  simp only [openFiche, laneOf_eq_some_iff.2 hl, htitles, hd, hidle, hc, Option.isSome_none, Bool.false_eq_true, if_false]

/-- Settles O25: the contexts and lanes read, the carried titles by their line count, and each outcome of the request. -/
theorem openFicheOpensLowestContext : Obligations.OpenFicheOpensLowestContext := by
  refine ⟨fun s l => ⟨fun _ => lowestFree_eq_some_iff, lowestFree_eq_none_iff, fun _ => fiche_of_composingContext,
    composingContext_eq_none_iff, fun _ => enabledLane_eq_some_iff⟩, fun _ => carriedTitlesOf_isSome, rfl, ?_⟩
  intro s f rest hx
  have hbody := expectedLength_of_executes hx
  obtain ⟨hone, htwo⟩ := openFiche_bodyLength hbody
  refine ⟨fun h => execute_answered hx (openFiche_malformed hbody h), ?_⟩
  rintro l titles _ _ _ _ hl htitles rfl rfl rfl rfl
  refine ⟨fun hcount => ?_, fun hcount => ?_, fun hcount => ?_, fun hd => execute_answered hx ?_, fun d hd => ⟨fun hne =>
    execute_answered hx ?_, fun hidle => ⟨fun hnone => execute_answered hx ?_, fun c hc => ?_⟩⟩⟩
  · simpa [carriedTitlesOf, hcount, eq_comm] using htitles
  · have hlen := hone hcount
    rw [carriedTitlesOf_one hcount (by omega)] at htitles
    obtain ⟨⟨⟨text, size⟩, n⟩, hline, rfl⟩ := Option.map_eq_some_iff.1 htitles
    obtain ⟨-, hsize, rfl, rfl⟩ := carriedLine_eq_some_iff.1 hline
    exact ⟨fieldText_length (by omega), size, hsize, rfl⟩
  · have hlen := htwo hcount
    rw [carriedTitlesOf_two hcount (by omega)] at htitles
    obtain ⟨⟨⟨text1, size1⟩, n1⟩, hline1, htitles⟩ := Option.bind_eq_some_iff.1 htitles
    obtain ⟨⟨⟨text2, size2⟩, n2⟩, hline2, rfl⟩ := Option.map_eq_some_iff.1 htitles
    obtain ⟨-, hsize1, rfl, rfl⟩ := carriedLine_eq_some_iff.1 hline1
    rw [carriedLine_eq_some_iff, show 4 + field f.body 2 1 + 1 = 5 + field f.body 2 1 by omega,
      show 4 + field f.body 2 1 + 2 = 6 + field f.body 2 1 by omega] at hline2
    obtain ⟨-, hsize2, rfl, rfl⟩ := hline2
    have htext2 := fieldText_length (body := f.body) (offset := 6 + field f.body 2 1)
      (length := field f.body (4 + field f.body 2 1) 1) (by omega)
    refine ⟨fieldText_length (by omega), htext2, size1, size2, hsize1, hsize2, ?_⟩
    simp only [carriedSpacing, clampSpacing, List.length_map, htext2]
  · simp only [openFiche, State.refuse, laneOf_eq_some_iff.2 hl, htitles, hd]
  · simp only [openFiche, State.refuse, laneOf_eq_some_iff.2 hl, htitles, hd, Option.isSome_iff_ne_none.2 hne, if_true]
  · simp only [openFiche, State.refuse, laneOf_eq_some_iff.2 hl, htitles, hd, hidle, hnone, Option.isSome_none,
      Bool.false_eq_true, if_false]
  · refine (execute_answered hx (openFiche_opened hl htitles hd hidle hc)).trans ?_
    cases titles <;> rfl

end Sys2Proof.Machine
end

section
/-! SUPPORT. What the gate reaches after TITLE_DONE, CELL_DONE and INDEX_CELL_DONE: page cells (R157, R158), the index
cells and the cut (R114 to R117, R159). -/
namespace Sys2Proof.Machine

/-! ## Updates of a fiche -/

theorem setContext_setContext (s : State) (c : CtxId) (x y : Option Fiche) :
    (s.setContext c x).setContext c y = s.setContext c y := by
  simp [State.setContext]

theorem modifyFiche_of_fiche {s : State} {c : CtxId} {x : Fiche} (h : s.fiche c = some x) (g : Fiche → Fiche) :
    s.modifyFiche c g = s.setContext c (some (g x)) := by
  simp [State.modifyFiche, h]

/-- Rewriting one OCCUPIED cell is setting it. -/
theorem mapCells_modify_one {cells : List Cell} {cell : Nat} {o : Occupied} (h : cells[cell]? = some (.occupied o))
    (g : Occupied → Occupied) :
    mapCells (fun i e => if i = cell then e.modify g else e) cells = cells.set cell (.occupied (g o)) := by
  refine List.ext_getElem? fun n => ?_
  rw [mapCells_getElem?, List.getElem?_set]
  by_cases hn : n = cell
  · subst hn
    have hlen := (List.getElem?_eq_some_iff.1 h).1
    rw [h, if_pos rfl, if_pos hlen, Option.map_some, if_pos rfl, Cell.modify]
  · rw [if_neg (Ne.symm hn)]
    cases cells[n]? <;> simp [hn]

theorem modifyCell_of_fiche {s : State} {c : CtxId} {x : Fiche} {cell : Nat} {o : Occupied} (hx : s.fiche c = some x)
    (ho : x.cells[cell]? = some (.occupied o)) (g : Occupied → Occupied) :
    s.modifyCell c cell g = s.setContext c (some { x with cells := x.cells.set cell (.occupied (g o)) }) := by
  rw [State.modifyCell, modifyFiche_of_fiche hx, mapCells_modify_one ho]

/-! ## The next OCCUPIED cell -/

theorem nextOccupied_eq_zipIdx_drop (cells : List Cell) (start : Nat) :
    nextOccupied cells start =
      ((cells.drop start).zipIdx start).findSome? fun e => e.1.entry.map fun o => (e.2, o) := by
  have hdrop : cells.zipIdx.drop start = (cells.drop start).zipIdx start := by
    refine List.ext_getElem? fun i => ?_
    simp only [List.getElem?_drop, List.getElem?_zipIdx, Nat.zero_add]
  rw [nextOccupied, hdrop]

theorem entry_eq_some_iff {e : Cell} {o : Occupied} : e.entry = some o ↔ e = .occupied o := by
  cases e <;> simp [Cell.entry]

theorem findSome?_entry_zipIdx (es : List Cell) : ∀ {n i : Nat} {o : Occupied}, es[i]? = some (.occupied o) →
    (∀ j < i, ∀ o', es[j]? ≠ some (.occupied o')) →
    (es.zipIdx n).findSome? (fun e => e.1.entry.map fun o => (e.2, o)) = some (n + i, o) := by
  induction es with
  | nil => intro n i o h; simp at h
  | cons e es ih =>
    intro n i o h hbefore
    cases i with
    | zero =>
      obtain rfl : e = .occupied o := by simpa using h
      rfl
    | succ i =>
      have he : e.entry = none := Option.eq_none_iff_forall_ne_some.2 fun o' ho' =>
        hbefore 0 (by omega) o' (by simp [entry_eq_some_iff.1 ho'])
      have hrest := ih (n := n + 1) (by simpa using h) fun j hj o' => by simpa using hbefore (j + 1) (by omega) o'
      simp only [List.zipIdx_cons, List.findSome?_cons, he, Option.map_none, hrest]
      congr 2
      omega

theorem nextOccupied_eq_some {cells : List Cell} {start cell : Nat} {o : Occupied} (hle : start ≤ cell)
    (ho : cells[cell]? = some (.occupied o))
    (hbefore : ∀ j, start ≤ j → j < cell → ∀ o', cells[j]? ≠ some (.occupied o')) :
    nextOccupied cells start = some (cell, o) := by
  rw [nextOccupied_eq_zipIdx_drop, findSome?_entry_zipIdx _ (i := cell - start) (o := o)]
  · congr 2
    omega
  · rwa [List.getElem?_drop, Nat.add_sub_cancel' hle]
  · intro j hj o'
    rw [List.getElem?_drop]
    exact hbefore _ (by omega) (by omega) o'

theorem nextOccupied_eq_none {cells : List Cell} {start : Nat}
    (h : ∀ j o, start ≤ j → cells[j]? ≠ some (.occupied o)) : nextOccupied cells start = none := by
  rw [nextOccupied_eq_zipIdx_drop, List.findSome?_eq_none_iff]
  rintro ⟨e, i⟩ he
  have hmem := List.mem_zipIdx_iff_le_and_getElem?_sub.1 he
  rw [List.getElem?_drop, Nat.add_sub_cancel' hmem.1] at hmem
  cases hentry : e.entry with
  | none => rfl
  | some o =>
    rw [entry_eq_some_iff.1 hentry] at hmem
    exact absurd hmem.2 (h i o hmem.1)

/-! ## The step-done events that reach a cell -/

/-- TITLE_DONE in TITLE and CELL_DONE in CELLS reach the next OCCUPIED cell from `start` on, from the state `base`
(R157). -/
def Reaches (s base : State) (cmd : Instr) (c : CtxId) (current start : Nat) : Prop :=
  (cmd = .titleDone ∧ s.gate.state = .title c ∧ start = 0 ∧ base = s) ∨
    (cmd = .cellDone ∧ s.gate.state = .cells c current ∧ start = current + 1 ∧
      base = s.modifyFiche c fun y => { y with cellsDone := y.cellsDone + 1 })

theorem exec_of_reaches {s base : State} {cmd : Instr} {c : CtxId} {current start : Nat}
    (h : Reaches s base cmd c current start) : exec cmd s = .next (base.reachFrom c start) := by
  rcases h with ⟨rfl, hg, rfl, rfl⟩ | ⟨rfl, hg, rfl, rfl⟩
  · simp only [exec, execTitleDone, hg]
  · simp only [exec, execCellDone, hg, State.cellIsDone]

/-- What the events that reach a cell leave before they reach it. -/
theorem Reaches.frame {s base : State} {cmd : Instr} {c : CtxId} {current start : Nat}
    (h : Reaches s base cmd c current start) :
    base.gate = s.gate ∧ base.port = s.port ∧ base.memory = s.memory ∧ base.directory = s.directory := by
  rcases h with ⟨-, -, -, rfl⟩ | ⟨-, -, -, rfl⟩ <;> exact ⟨rfl, rfl, rfl, rfl⟩

/-! ## The index -/

/-- The index lines read the cells, which the count of cells done leaves. -/
theorem indexLine_modifyFiche {s : State} {c : CtxId} {g : Fiche → Fiche} (hg : ∀ x, (g x).cells = x.cells) (f : Format)
    (r : Record) (p : RecordPart) : (s.modifyFiche c g).indexLine f r p = s.indexLine f r p := by
  have hentries : (s.modifyFiche c g).partEntries r p = s.partEntries r p := by
    simp only [State.partEntries, State.fiche_modifyFiche, Fiche.entriesOf]
    split
    next h =>
      rw [h]
      cases s.fiche c <;> simp [hg]
    next => rfl
  have hhas : ∀ i, (s.modifyFiche c g).partHas r p i = s.partHas r p i := fun i => by
    rw [State.partHas, State.partHas, hentries]
  rw [State.indexLine, State.indexLine, State.indexFlag, State.indexFlag, hhas, hhas]

theorem Reaches.indexList {s base : State} {cmd : Instr} {c : CtxId} {current start : Nat}
    (h : Reaches s base cmd c current start) (x : Fiche) :
    base.indexList c x = s.directory.flatMap fun r =>
      (r.parts.filter fun p => p.ctx == c).map fun p => s.indexLine x.format r p := by
  rcases h with ⟨-, -, -, rfl⟩ | ⟨-, -, -, rfl⟩
  · rfl
  · have hline : (s.modifyFiche c fun y => { y with cellsDone := y.cellsDone + 1 }).indexLine x.format =
        s.indexLine x.format := by
      funext r p
      exact indexLine_modifyFiche (by intro; rfl) x.format r p
    rw [State.indexList, hline]
    rfl

theorem reachFrom_of_none {s : State} {c : CtxId} {x : Fiche} {start : Nat} (hx : s.fiche c = some x)
    (hnext : nextOccupied x.cells start = none) :
    s.reachFrom c start = if x.k.val = 0 then s.beginCut c
      else s.exposeIndexCell c x (usableCells x.format x.k) (s.indexList c x) := by
  simp only [State.reachFrom, hx, hnext, State.finishPages]

theorem execIndexCellDone_of_index {s : State} {c : CtxId} {current : Nat} {list : List Text} {x : Fiche}
    (hg : s.gate.state = .index c current list) (hx : s.fiche c = some x) :
    execIndexCellDone s = .next
      (let t := s.setContext c (some { x with cellsDone := x.cellsDone + 1 })
       if current + 1 < x.format.cells then
        t.exposeIndexCell c { x with cellsDone := x.cellsDone + 1 } (current + 1) list
       else t.beginCut c) := by
  simp only [execIndexCellDone, hg, State.cellIsDone, modifyFiche_of_fiche hx, State.fiche_setContext_self]

theorem printedCell_eq (f : Format) (cell : Nat) : printedCell f cell =
    [65 + cell / f.columns, 48 + (cell % f.columns + 1) / 10, 48 + (cell % f.columns + 1) % 10] := by
  have hcolumn : (cell % f.columns + 1) / 10 % 10 = (cell % f.columns + 1) / 10 := by
    have : cell % f.columns < 24 := by
      cases f <;> simp only [Format.columns] <;> omega
    omega
  simp [printedCell, decimal, List.range_succ, hcolumn]

/-- Settles O43: the printed text; the index stage or the cut after the last page cell; the next index cell or the cut. -/
theorem indexFollowsPageCells : Obligations.IndexFollowsPageCells := by
  refine ⟨⟨rfl, rfl, fun f cell => ⟨rfl, printedCell_eq f cell⟩⟩,
    fun width n => ⟨decimal_length width n, fun i => decimal_getElem?⟩, fun _ _ _ _ => rfl, ?_, ?_⟩
  · intro s base cmd c current start x list hreach hx hnone hlist
    replace hreach : Reaches s base cmd c current start := hreach
    rw [← hreach.indexList] at hlist
    obtain ⟨hgate, -⟩ := hreach.frame
    rw [exec_of_reaches hreach, reachFrom_of_none hx (nextOccupied_eq_none fun j o hj => hnone j o hj), ← hgate, hlist]
    refine ⟨fun hk => ?_, fun hk => ?_⟩
    · rw [if_pos (by rw [hk]; rfl)]
      rfl
    · have hk' : x.k.val ≠ 0 := fun h => hk (Fin.ext h)
      rw [if_neg hk']
      simp only [State.exposeIndexCell, indexCellLines, Nat.sub_self, Nat.zero_mul, List.drop_zero]
      rfl
  · intro s c current list x hg hx
    refine ⟨fun hmore => ?_, fun hlast => ?_⟩ <;> refine (execIndexCellDone_of_index hg hx).trans ?_
    · rw [if_pos hmore]
      rfl
    · rw [if_neg (by omega)]
      rfl

end Sys2Proof.Machine
end

section
/-! SUPPORT. What a store lists, and how the gate shows the page cell it reaches (R102, R103, R158, R164). -/
namespace Sys2Proof.Machine

/-! ## What a store lists -/

theorem sparseGet_of_mem {α : Type} [DecidableEq α] {d : α} {m : List (Nat × α)} {a : Nat} {v : α}
    (h : sparseWf d m = true) (he : (a, v) ∈ m) : sparseGet d m a = v := by
  induction m with
  | nil => cases he
  | cons e m ih =>
    obtain ⟨k, w⟩ := e
    obtain ⟨hne, hlt⟩ := sparseWf_iff.1 h
    obtain ⟨hk, hpair⟩ := List.pairwise_cons.1 hlt
    rcases List.mem_cons.1 he with heq | hmem
    · cases heq
      simp [sparseGet]
    · have : k < a := hk _ hmem
      rw [sparseGet, if_neg (by omega)]
      exact ih (sparseWf_iff.2 ⟨fun e he => hne e (List.mem_cons_of_mem _ he), hpair⟩) hmem

/-- What reads as other than the default is listed. -/
theorem mem_of_sparseGet_ne {α : Type} {d : α} {m : List (Nat × α)} {a : Nat} (h : sparseGet d m a ≠ d) :
    (a, sparseGet d m a) ∈ m := by
  induction m with
  | nil => exact absurd rfl h
  | cons e m ih =>
    obtain ⟨k, w⟩ := e
    rw [sparseGet] at h ⊢
    split
    next hk =>
      subst hk
      exact List.mem_cons_self
    next hk =>
      rw [if_neg hk] at h
      exact List.mem_cons_of_mem _ (ih h)

/-- A store in canonical form lists no address twice. -/
theorem nodup_keys_of_sparseWf {α : Type} [DecidableEq α] {d : α} {m : List (Nat × α)} (h : sparseWf d m = true) :
    (m.map (·.1)).Nodup :=
  List.pairwise_map.2 ((sparseWf_iff.1 h).2.imp fun hlt => Nat.ne_of_lt hlt)

/-! ## The groups a read finds -/

theorem groupCondition_zero : groupCondition 0#72 = .clean := by decide

/-- The listed groups that count are all the groups of the extent in that condition: an unlisted one is clean. -/
theorem countGroups_eq_ncard {m : Memory} {e : Format} {b : Nat} {condition : GroupCondition} (hm : m.wf = true)
    (hc : condition ≠ .clean) : m.countGroups e b condition = Set.ncard
      {n : Nat | inExtent e b (8 * n) = true ∧ groupCondition (sparseGet 0#72 m.upsets n) = condition} := by
  obtain ⟨-, hwf, -⟩ := Memory.wf_iff.1 hm
  let counted := m.upsets.filter fun g => groupInExtent e b g.1 && groupCondition g.2 == condition
  have hset : {n : Nat | inExtent e b (8 * n) = true ∧ groupCondition (sparseGet 0#72 m.upsets n) = condition} =
      ((counted.map (·.1)).toFinset : Set Nat) := by
    ext n
    simp only [Set.mem_ofPred_eq, List.coe_toFinset, List.mem_map, counted, List.mem_filter, Bool.and_eq_true, beq_iff_eq]
    constructor
    · rintro ⟨hin, hcond⟩
      have hne : sparseGet 0#72 m.upsets n ≠ 0#72 := by
        intro h0
        rw [h0, groupCondition_zero] at hcond
        exact hc hcond.symm
      exact ⟨_, ⟨mem_of_sparseGet_ne hne, hin, hcond⟩, rfl⟩
    · rintro ⟨⟨k, v⟩, ⟨hmem, hin, hcond⟩, rfl⟩
      exact ⟨hin, by rwa [sparseGet_of_mem hwf hmem]⟩
  rw [hset, Set.ncard_coe_finset, List.toFinset_card_of_nodup (nodup_keys_of_sparseWf (sparseWf_filter _ hwf)),
    List.length_map, Memory.countGroups, List.countP_eq_length_filter]

/-! ## Reading a cell's buffer -/

/-- The state after a read of the buffer of a cell of the fiche x: its groups counted and written back (R102, R103). -/
def State.afterRead (s : State) (c : CtxId) (x : Fiche) (e : Format) (b : Nat) : State :=
  let found := s.memory.countGroups e b .correctable
  { s.setContext c (some { x with corrected := min 65535 (x.corrected + found) }) with
    memory := s.memory.writeBack e b
    port := { s.port with counters := { s.port.counters with
      correctedEcc := min 65535 (s.port.counters.correctedEcc + found)
      uncorrectableEcc := min 65535
        (s.port.counters.uncorrectableEcc + if s.memory.readOutcome e b = .uncorrectable then 1 else 0) } } }

theorem readBuffer_of_fiche {s : State} {c : CtxId} {x : Fiche} (hx : s.fiche c = some x) (e : Format) (b : Nat) :
    s.readBuffer c e b = (s.memory.readOutcome e b, s.afterRead c x e b) := by
  have hx' : ({ s with memory := s.memory.writeBack e b } : State).fiche c = some x := hx
  simp only [State.readBuffer, modifyFiche_of_fiche hx']
  rfl

@[simp] theorem afterRead_fiche (s : State) (c : CtxId) (x : Fiche) (e : Format) (b : Nat) :
    (s.afterRead c x e b).fiche c =
      some { x with corrected := min 65535 (x.corrected + s.memory.countGroups e b .correctable) } :=
  State.fiche_setContext_self s c _

/-- A further update of the fiche read replaces it. -/
theorem setContext_afterRead (s : State) (c : CtxId) (x : Fiche) (e : Format) (b : Nat) (y : Option Fiche) :
    (s.afterRead c x e b).setContext c y =
      { s.setContext c y with memory := (s.afterRead c x e b).memory, port := (s.afterRead c x e b).port } := by
  have h := setContext_setContext s c (some { x with
    corrected := min 65535 (x.corrected + s.memory.countGroups e b .correctable) }) y
  have hcomposer := congrArg State.composer h
  simp only [State.setContext] at hcomposer
  simp only [State.afterRead, State.setContext, hcomposer]

/-! ## What a reached cell shows -/

section
variable {s : State} {c : CtxId} {x : Fiche} {cell b : Nat} {o : Occupied} {e : Format}

theorem showCell_missing (himage : o.image = .missing) :
    s.showCell c x cell o = (.placeholder x.format notReceivedText (placeholderLine2 o), s) := by
  cases hb : o.buffer <;> simp only [State.showCell, himage, hb]

/-- A page read CLEAN or CORRECTED is shown; its cell is saturated when a spot is clamped. -/
theorem showCell_readable (hx : s.fiche c = some x) (himage : o.image = .present) (hb : o.buffer = some b)
    (he : e = (s.memory.extent b).getD x.format) (hread : s.memory.readOutcome e b ≠ .uncorrectable) :
    s.showCell c x cell o = (.page e (s.memory.content e b),
      if pageClamps (s.driveSettings x) e (s.memory.content e b) then (s.afterRead c x e b).saturateCell c cell
      else s.afterRead c x e b) := by
  subst he
  simp only [State.showCell, himage, hb, readBuffer_of_fiche hx]
  split
  next hr => exact absurd (Prod.mk.inj hr).1 hread
  all_goals
    next hr =>
      obtain ⟨-, rfl⟩ := Prod.mk.inj hr
      rfl

/-- A page read UNCORRECTABLE makes its cell DAMAGED. -/
theorem showCell_uncorrectable (hx : s.fiche c = some x) (himage : o.image = .present) (hb : o.buffer = some b)
    (he : e = (s.memory.extent b).getD x.format) (hread : s.memory.readOutcome e b = .uncorrectable) :
    s.showCell c x cell o = (.placeholder x.format damagedText (placeholderLine2 o),
      ((s.afterRead c x e b).setLaneFlag x.lane .damaged).modifyCell c cell fun o => { o with image := .damaged }) := by
  subst he
  simp only [State.showCell, himage, hb, readBuffer_of_fiche hx, hread]

/-- A DAMAGED cell is read again; its flag is set again when it is still UNCORRECTABLE. -/
theorem showCell_damaged (hx : s.fiche c = some x) (himage : o.image = .damaged) (hb : o.buffer = some b)
    (he : e = (s.memory.extent b).getD x.format) :
    s.showCell c x cell o = (.placeholder x.format damagedText (placeholderLine2 o),
      if s.memory.readOutcome e b = .uncorrectable then (s.afterRead c x e b).setLaneFlag x.lane .damaged
      else s.afterRead c x e b) := by
  subst he
  simp only [State.showCell, himage, hb, readBuffer_of_fiche hx]
  split
  all_goals
    next hr =>
      obtain ⟨hout, rfl⟩ := Prod.mk.inj hr
      simp [hout]

/-! ## The states they leave -/

theorem afterRead_of_readable (hread : s.memory.readOutcome e b ≠ .uncorrectable) :
    s.afterRead c x e b =
      { s.setContext c (some { x with
          corrected := min 65535 (x.corrected + s.memory.countGroups e b .correctable) }) with
        memory := s.memory.writeBack e b
        port := { s.port with counters := { s.port.counters with
          correctedEcc := min 65535 (s.port.counters.correctedEcc + s.memory.countGroups e b .correctable)
          uncorrectableEcc := min 65535 s.port.counters.uncorrectableEcc } } } := by
  rw [State.afterRead, if_neg hread]
  rfl

theorem saturateCell_afterRead (ho : x.cells[cell]? = some (.occupied o))
    (hread : s.memory.readOutcome e b ≠ .uncorrectable) :
    (s.afterRead c x e b).saturateCell c cell =
      { s.setContext c (some { x with
          corrected := min 65535 (x.corrected + s.memory.countGroups e b .correctable)
          cells := x.cells.set cell (.occupied { o with saturated := true })
          saturatedCells := min 65535 (x.saturatedCells + 1) }) with
        memory := s.memory.writeBack e b
        port := { s.port with counters := { s.port.counters with
          correctedEcc := min 65535 (s.port.counters.correctedEcc + s.memory.countGroups e b .correctable)
          uncorrectableEcc := min 65535 s.port.counters.uncorrectableEcc
          saturatedCells := min 65535 (s.port.counters.saturatedCells + 1) } } } := by
  rw [State.saturateCell, modifyCell_of_fiche (afterRead_fiche s c x e b) ho,
    modifyFiche_of_fiche (State.fiche_setContext_self _ c _), setContext_setContext, setContext_afterRead,
    afterRead_of_readable hread]
  rfl

theorem modifyCell_afterUncorrectable (ho : x.cells[cell]? = some (.occupied o))
    (hread : s.memory.readOutcome e b = .uncorrectable) :
    ((s.afterRead c x e b).setLaneFlag x.lane .damaged).modifyCell c cell (fun o => { o with image := .damaged }) =
      { s.setContext c (some { x with
          corrected := min 65535 (x.corrected + s.memory.countGroups e b .correctable)
          cells := x.cells.set cell (.occupied { o with image := .damaged }) }) with
        memory := s.memory.writeBack e b
        port := { s.port with
          flags := s.port.flags ||| BitVec.twoPow 24 (4 * x.lane.val + 3)
          counters := { s.port.counters with
            correctedEcc := min 65535 (s.port.counters.correctedEcc + s.memory.countGroups e b .correctable)
            uncorrectableEcc := min 65535 (s.port.counters.uncorrectableEcc + 1) } } } := by
  have hfiche : ((s.afterRead c x e b).setLaneFlag x.lane .damaged).fiche c = _ := afterRead_fiche s c x e b
  rw [modifyCell_of_fiche hfiche ho]
  refine (congrArg (State.setLaneFlag · x.lane .damaged) (setContext_afterRead s c x e b _)).trans ?_
  rw [State.afterRead, if_pos hread]
  rfl

/-- A cell that is DAMAGED already is not changed by becoming DAMAGED. -/
theorem set_damaged_cell {cells : List Cell} (ho : cells[cell]? = some (.occupied o)) (himage : o.image = .damaged) :
    cells.set cell (.occupied { o with image := .damaged }) = cells := by
  obtain ⟨hlt, hget⟩ := List.getElem?_eq_some_iff.1 ho
  rw [← himage, ← hget]
  exact List.set_getElem_self hlt

theorem reachFrom_of_some {start : Nat} {p : Picture} {t : State} (hx : s.fiche c = some x)
    (hnext : nextOccupied x.cells start = some (cell, o)) (hshow : s.showCell c x cell o = (p, t))
    (hgate : t.gate = s.gate) :
    s.reachFrom c start = { t with gate := { s.gate with
      state := .cells c cell
      step := some (.expose (cell % x.format.columns * x.format.cellWidth)
        (1440 + cell / x.format.columns * x.format.cellHeight) p (s.driveSettings x))
      standby := none } } := by
  simp only [State.reachFrom, hx, hnext, hshow, State.enterGate, Gate.enter, State.cellStep, State.driveSettings, hgate]
  rfl

end

/-- Settles O42: line 2 and the counted groups; then each kind of reached cell by what it shows and the state it leaves. -/
theorem reachedCellIsShown : Obligations.ReachedCellIsShown := by
  refine ⟨fun _ => rfl, fun m e b condition hm hc => countGroups_eq_ncard hm hc, ?_⟩
  intro s base cmd c current start cell x o settings show' hreach hx hle ho hbefore hsettings hshow'
  replace hreach : Reaches s base cmd c current start := hreach
  obtain ⟨hgate, hport, hmemory, -⟩ := hreach.frame
  have hnext := nextOccupied_eq_some hle ho hbefore
  have hdrive : base.driveSettings x = settings := by rw [State.driveSettings, hgate, hsettings]
  have hexec : ∀ {p t}, base.showCell c x cell o = (p, t) → t.gate = base.gate → exec cmd s = .next (show' t p) := by
    intro p t hshow ht
    rw [exec_of_reaches hreach, reachFrom_of_some hx hnext hshow ht, hshow', hdrive, hgate]
  rw [← hport, ← hmemory]
  refine ⟨fun himage => hexec (showCell_missing himage) rfl, ?_⟩
  rintro b e _ hb he rfl
  refine ⟨fun himage hread => ⟨fun hclamps => ?_, fun hclamps => ?_⟩, fun himage hread => ?_, fun himage hread => ?_⟩
  · have hshow := showCell_readable hx himage hb he hread (cell := cell)
    rw [hdrive, hclamps, if_neg (by decide), afterRead_of_readable hread] at hshow
    exact hexec hshow rfl
  · have hshow := showCell_readable hx himage hb he hread (cell := cell)
    rw [hdrive, hclamps, if_pos rfl, saturateCell_afterRead ho hread] at hshow
    exact hexec hshow rfl
  · rcases himage with himage | himage
    · have hshow := showCell_uncorrectable hx himage hb he hread (cell := cell)
      rw [modifyCell_afterUncorrectable ho hread] at hshow
      exact hexec hshow rfl
    · have hshow := showCell_damaged hx himage hb he (cell := cell)
      rw [if_pos hread, State.afterRead, if_pos hread] at hshow
      rw [set_damaged_cell ho himage]
      exact hexec hshow rfl
  · have hshow := showCell_damaged hx himage hb he (cell := cell)
    rw [if_neg hread, afterRead_of_readable hread] at hshow
    exact hexec hshow rfl

end Sys2Proof.Machine
end

section
/-! SUPPORT. The gray values of what the gate exposes (R107, R108, R111, R112, R117, R119), the spots of a page, and the
drive values (R155, R162 to R164). -/
namespace Sys2Proof.Machine

/-! ## Glyphs and text -/

theorem glyphGray_values (code column row : Nat) : glyphGray code column row = 0 ∨ glyphGray code column row = 255 := by
  unfold glyphGray
  dsimp only
  split
  · exact .inl rfl
  · exact .inr rfl

theorem glyphGray_paper {code column row : Nat} (h : 7 ≤ column ∨ 11 ≤ row ∨ code = 32) :
    glyphGray code column row = 255 := by
  have hspace : code = 32 → printable code = 32 := by
    rintro rfl
    rfl
  exact if_neg fun ⟨hcolumn, hrow, hcode, _⟩ => by
    rcases h with h | h | h
    · omega
    · omega
    · exact hcode (hspace h)

theorem glyphGray_unprintable {code : Nat} (h : code < 32 ∨ 126 < code) (column row : Nat) :
    glyphGray code column row = glyphGray 63 column row := by
  have hcode : printable code = printable 63 := if_pos h
  rw [glyphGray, hcode, glyphGray]

theorem textGray_le (text : Text) (x0 y0 w h x y : Nat) : textGray text x0 y0 w h x y ≤ 255 := by
  unfold textGray
  split
  · split
    next code _ =>
      have hvalues := glyphGray_values code ((x - x0) % (8 * w) / w) ((y - y0) / h)
      omega
    next => exact le_rfl
  · exact le_rfl

theorem textGray_outside_rows {text : Text} {x0 y0 w h x y : Nat} (hy : y < y0 ∨ y0 + 12 * h ≤ y) :
    textGray text x0 y0 w h x y = 255 := if_neg (by omega)

theorem textGray_outside {text : Text} {x0 y0 w h x y : Nat} (hw : 0 < w)
    (hout : x < x0 ∨ x0 + text.length * (8 * w) ≤ x ∨ y < y0 ∨ y0 + 12 * h ≤ y) : textGray text x0 y0 w h x y = 255 := by
  by_cases hin : x0 ≤ x ∧ y0 ≤ y ∧ y < y0 + 12 * h
  · have hpast : text.length ≤ (x - x0) / (8 * w) := (Nat.le_div_iff_mul_le (by omega)).2 (by omega)
    simp only [textGray, List.getElem?_eq_none hpast, ite_self]
  · exact if_neg hin

/-- The dot of the j-th character of a text at (dx, dy) within its glyph's box. -/
theorem textGray_glyph {text : Text} {x0 y0 w h j code dx dy : Nat} (hw : 0 < w) (hcode : text[j]? = some code)
    (hdx : dx < 8 * w) (hdy : dy < 12 * h) :
    textGray text x0 y0 w h (x0 + j * (8 * w) + dx) (y0 + dy) = glyphGray code (dx / w) (dy / h) := by
  have hx : x0 + j * (8 * w) + dx - x0 = dx + j * (8 * w) := by omega
  have hy : y0 + dy - y0 = dy := by omega
  have hdiv : (dx + j * (8 * w)) / (8 * w) = j := by
    rw [Nat.add_mul_div_right _ _ (by omega), Nat.div_eq_of_lt hdx, Nat.zero_add]
  have hmod : (dx + j * (8 * w)) % (8 * w) = dx := by rw [Nat.add_mul_mod_self_right, Nat.mod_eq_of_lt hdx]
  unfold textGray
  rw [if_pos (by omega), hx, hy, hdiv, hmod, hcode]

/-! ## Title strips and placeholders -/

/-- Above line 2 of the strip only line 1 shows; below line 1 only line 2 does, when it is kept (R111). -/
theorem titleGray_two (f : Format) (l1 l2 : TitleLine) (spacing x y : Nat) :
    (y < l1.size.glyphHeight → titleGray f [l1, l2] spacing x y =
      textGray (drawnText f l1) 0 0 l1.size.dotWidth l1.size.dotHeight x y) ∧
    (l1.size.glyphHeight ≤ y → titleGray f [l1, l2] spacing x y =
      if line2Kept l1 l2 spacing then
        textGray (drawnText f l2) 0 (line2Top l1 spacing) l2.size.dotWidth l2.size.dotHeight x y else 255) := by
  refine ⟨fun hy => ?_, fun hy => ?_⟩
  · have hline2 : textGray (drawnText f l2) 0 (line2Top l1 spacing) l2.size.dotWidth l2.size.dotHeight x y = 255 :=
      textGray_outside_rows (.inl (Nat.lt_add_right _ hy))
    simp only [titleGray, hline2, ite_self]
    exact min_eq_left (textGray_le ..)
  · have hline1 : textGray (drawnText f l1) 0 0 l1.size.dotWidth l1.size.dotHeight x y = 255 :=
      textGray_outside_rows (.inr (by rwa [Nat.zero_add]))
    simp only [titleGray, hline1]
    refine min_eq_right ?_
    split
    · exact textGray_le ..
    · exact le_rfl

/-- The two lines of a placeholder stand 64 rows apart and are 48 rows high (R119). -/
theorem placeholderGray_lines (f : Format) (text1 text2 : Text) (x y : Nat) :
    (y < (f.cellHeight - 112) / 2 + 64 → placeholderGray f text1 text2 x y =
      textGray text1 ((f.cellWidth - 32 * text1.length) / 2) ((f.cellHeight - 112) / 2) 4 4 x y) ∧
    ((f.cellHeight - 112) / 2 + 64 ≤ y → placeholderGray f text1 text2 x y =
      textGray text2 ((f.cellWidth - 32 * text2.length) / 2) ((f.cellHeight - 112) / 2 + 64) 4 4 x y) := by
  refine ⟨fun hy => ?_, fun hy => ?_⟩
  · have hline2 : textGray text2 ((f.cellWidth - 32 * text2.length) / 2) ((f.cellHeight - 112) / 2 + 64) 4 4 x y = 255 :=
      textGray_outside_rows (.inl hy)
    simp only [placeholderGray, hline2]
    exact min_eq_left (textGray_le ..)
  · have hline1 : textGray text1 ((f.cellWidth - 32 * text1.length) / 2) ((f.cellHeight - 112) / 2) 4 4 x y = 255 :=
      textGray_outside_rows (.inr (by omega))
    simp only [placeholderGray, hline1]
    exact min_eq_right (textGray_le ..)

/-! ## The spots of a page -/

theorem cellWidth_le (f : Format) : f.cellWidth ≤ 2048 := by cases f <;> decide
theorem cellHeight_le (f : Format) : f.cellHeight ≤ 1536 := by cases f <;> decide

/-- The addresses of an extent are those of its spots (R94). -/
theorem inExtent_iff {f : Format} {buffer a : Nat} : inExtent f buffer a = true ↔
    ∃ x < f.cellWidth, ∃ y < f.cellHeight, a = spotAddress buffer x y := by
  have hwidth := cellWidth_le f
  have hheight := cellHeight_le f
  simp only [inExtent, Bool.and_eq_true, beq_iff_eq, decide_eq_true_eq]
  simp only [bufferStride, rowStride, spotAddress]
  constructor
  · rintro ⟨⟨hbuffer, hy⟩, hx⟩
    exact ⟨a % 2048, hx, a % 3145728 / 2048, hy, by omega⟩
  · rintro ⟨x, hx, y, hy, rfl⟩
    omega

theorem spotAddress_injective {f : Format} {buffer x y x' y' : Nat} (hx : x < f.cellWidth) (hx' : x' < f.cellWidth)
    (h : spotAddress buffer x y = spotAddress buffer x' y') : x = x' ∧ y = y' := by
  have hwidth := cellWidth_le f
  simp only [spotAddress, bufferStride, rowStride] at h
  omega

/-- Reading a list whose addresses are all moved down. -/
theorem sparseGet_map_sub {α : Type} {d : α} {k : Nat} {m : List (Nat × α)} (h : ∀ e ∈ m, k ≤ e.1) (a : Nat) :
    sparseGet d (m.map fun e => (e.1 - k, e.2)) a = sparseGet d m (k + a) := by
  induction m with
  | nil => rfl
  | cons e m ih =>
    have hk : k ≤ e.1 := h e List.mem_cons_self
    have hiff : a = e.1 - k ↔ k + a = e.1 := by omega
    simp only [List.map_cons, sparseGet, hiff, ih fun e he => h e (List.mem_cons_of_mem _ he)]

/-- The spots of a page are those of its buffer (R102). -/
theorem content_spot {m : Memory} {f : Format} {buffer x y : Nat} (hm : m.wf = true) (hx : x < f.cellWidth)
    (hy : y < f.cellHeight) : sparseGet blankSpot (m.content f buffer) (2048 * y + x) = m.spot buffer x y := by
  obtain ⟨hwf, -, -⟩ := Memory.wf_iff.1 hm
  have haddress : buffer * bufferStride + (2048 * y + x) = spotAddress buffer x y := by
    simp only [spotAddress, rowStride]
    omega
  have hin : inExtent f buffer (spotAddress buffer x y) = true := inExtent_iff.2 ⟨x, hx, y, hy, rfl⟩
  rw [Memory.content, sparseGet_map_sub, haddress, sparseGet_filter _ hwf, if_pos hin]
  · rfl
  · intro e he
    obtain ⟨x, -, y, -, ha⟩ := inExtent_iff.1 (List.mem_filter.1 he).2
    simp only [ha, spotAddress]
    omega

/-- The addresses of an extent. -/
def extentAddresses (f : Format) (buffer : Nat) : Finset Nat :=
  (Finset.range f.cellWidth ×ˢ Finset.range f.cellHeight).image fun p => spotAddress buffer p.1 p.2

theorem mem_extentAddresses {f : Format} {buffer a : Nat} :
    a ∈ extentAddresses f buffer ↔ inExtent f buffer a = true := by
  rw [inExtent_iff]
  simp only [extentAddresses, Finset.mem_image, Finset.mem_product, Finset.mem_range, Prod.exists]
  constructor
  · rintro ⟨x, y, ⟨hx, hy⟩, rfl⟩
    exact ⟨x, hx, y, hy, rfl⟩
  · rintro ⟨x, hx, y, hy, rfl⟩
    exact ⟨x, y, ⟨hx, hy⟩, rfl⟩

theorem card_extentAddresses (f : Format) (buffer : Nat) :
    (extentAddresses f buffer).card = f.cellWidth * f.cellHeight := by
  rw [extentAddresses, Finset.card_image_of_injOn, Finset.card_product, Finset.card_range, Finset.card_range]
  rintro ⟨x, y⟩ hp ⟨x', y'⟩ hp' h
  simp only [Finset.coe_product, Set.mem_prod, Finset.coe_range, Set.mem_Iio] at hp hp'
  obtain ⟨rfl, rfl⟩ := spotAddress_injective hp.1 hp'.1 h
  rfl

/-- A page lists fewer spots than its extent has exactly when some spot of the extent is blank. -/
theorem content_length_lt_iff {m : Memory} {f : Format} {buffer : Nat} (hm : m.wf = true) :
    (m.content f buffer).length < f.cellWidth * f.cellHeight ↔
      ∃ a, inExtent f buffer a = true ∧ sparseGet blankSpot m.spots a = blankSpot := by
  obtain ⟨hwf, -, -⟩ := Memory.wf_iff.1 hm
  let listed := (m.spots.filter fun e => inExtent f buffer e.1).map (·.1)
  have hmem : ∀ a, a ∈ listed ↔ inExtent f buffer a = true ∧ sparseGet blankSpot m.spots a ≠ blankSpot := by
    intro a
    simp only [listed, List.mem_map, List.mem_filter]
    constructor
    · rintro ⟨⟨k, v⟩, ⟨hspot, hin⟩, rfl⟩
      exact ⟨hin, by rw [sparseGet_of_mem hwf hspot]; exact (sparseWf_iff.1 hwf).1 _ hspot⟩
    · rintro ⟨hin, hne⟩
      exact ⟨_, ⟨mem_of_sparseGet_ne hne, hin⟩, rfl⟩
  have hcard : listed.toFinset.card = (m.content f buffer).length := by
    rw [List.toFinset_card_of_nodup (nodup_keys_of_sparseWf (sparseWf_filter _ hwf))]
    simp only [Memory.content, List.length_map]
  have hsub : listed.toFinset ⊆ extentAddresses f buffer := fun a ha =>
    mem_extentAddresses.2 ((hmem a).1 (List.mem_toFinset.1 ha)).1
  rw [← hcard, ← card_extentAddresses f buffer]
  constructor
  · intro hlt
    obtain ⟨a, ha, hnot⟩ := Finset.exists_mem_notMem_of_card_lt_card hlt
    rw [mem_extentAddresses] at ha
    rw [List.mem_toFinset, hmem, not_and, not_not] at hnot
    exact ⟨a, ha, hnot ha⟩
  · rintro ⟨a, ha, hblank⟩
    refine Finset.card_lt_card (Finset.ssubset_iff_subset_ne.2 ⟨hsub, fun heq => ?_⟩)
    rw [← mem_extentAddresses, ← heq, List.mem_toFinset, hmem] at ha
    exact ha.2 hblank

/-- A page saturates exactly when some spot of its extent is clamped (R164): the listed spots are seen one by one, the
others as blank. -/
theorem pageClamps_iff {m : Memory} {f : Format} {buffer : Nat} {d : DriveSettings} (hm : m.wf = true) :
    pageClamps d f (m.content f buffer) = true ↔
      ∃ x < f.cellWidth, ∃ y < f.cellHeight, clamps d (m.spot buffer x y).toNat = true := by
  obtain ⟨hwf, -, -⟩ := Memory.wf_iff.1 hm
  have hlisted : (m.content f buffer).any (fun e => clamps d e.2.toNat) = true ↔
      ∃ e ∈ m.spots, inExtent f buffer e.1 = true ∧ clamps d e.2.toNat = true := by
    simp [Memory.content]
  rw [pageClamps, Bool.or_eq_true, hlisted, Bool.and_eq_true, decide_eq_true_eq, content_length_lt_iff hm]
  constructor
  · rintro (⟨⟨a, v⟩, hmem, hin, hclamps⟩ | ⟨⟨a, hin, hblank⟩, hclamps⟩) <;>
      obtain ⟨x, hx, y, hy, rfl⟩ := inExtent_iff.1 hin
    · exact ⟨x, hx, y, hy, by rwa [Memory.spot, sparseGet_of_mem hwf hmem]⟩
    · exact ⟨x, hx, y, hy, by rwa [Memory.spot, hblank]⟩
  · rintro ⟨x, hx, y, hy, hclamps⟩
    have hin : inExtent f buffer (spotAddress buffer x y) = true := inExtent_iff.2 ⟨x, hx, y, hy, rfl⟩
    by_cases hblank : m.spot buffer x y = blankSpot
    · exact .inr ⟨⟨_, hin, hblank⟩, by rwa [hblank] at hclamps⟩
    · exact .inl ⟨_, mem_of_sparseGet_ne hblank, hin, hclamps⟩

/-! ## Drive values -/

/-- Interpolation stays between its two entries. -/
theorem interpolation_between (lo hi k : Nat) (hk : k < 16) :
    ((min lo hi : Nat) : Int) ≤ lo + (((hi : Int) - lo) * (k : Int)).tdiv 16 ∧
      lo + (((hi : Int) - lo) * (k : Int)).tdiv 16 ≤ ((max lo hi : Nat) : Int) := by
  rcases Nat.le_total lo hi with hle | hle
  · obtain ⟨n, rfl⟩ := Nat.exists_eq_add_of_le hle
    have hprod : n * k ≤ n * 15 := Nat.mul_le_mul_left n (by omega)
    have hq : (((lo + n : Nat) : Int) - lo) * (k : Int) = ((n * k : Nat) : Int) := by push_cast; ring
    rw [hq, Int.tdiv_eq_ediv_of_nonneg (by omega)]
    omega
  · obtain ⟨n, rfl⟩ := Nat.exists_eq_add_of_le hle
    have hprod : n * k ≤ n * 15 := Nat.mul_le_mul_left n (by omega)
    have hq : ((hi : Int) - ((hi + n : Nat) : Int)) * (k : Int) = -((n * k : Nat) : Int) := by push_cast; ring
    rw [hq, Int.neg_tdiv, Int.tdiv_eq_ediv_of_nonneg (by omega)]
    omega

theorem interpolate_eq {curve : Vector Nat 17} {h lo hi : Nat} (hlo : curve[h / 16]? = some lo)
    (hhi : curve[h / 16 + 1]? = some hi) :
    interpolate curve h = (lo + (((hi : Int) - lo) * ((h % 16 : Nat) : Int)).tdiv 16).toNat := by
  simp only [interpolate, hlo, hhi, Option.getD_some]

theorem driveRows_getElem? {x0 y0 x y : Nat} {p : Picture} {d : DriveSettings} (hx : x < p.width) (hy : y < p.height) :
    ((Step.expose x0 y0 p d).driveRows[y]?.bind fun row => row[x]?) = some (driveValue d (p.gray x y)) := by
  simp [Step.driveRows, hx, hy]

theorem driveRows_le {step : Step} {row : List Nat} (hrow : row ∈ step.driveRows) {v : Nat} (hv : v ∈ row) :
    v ≤ 16383 := by
  cases step with
  | expose x0 y0 p d =>
    obtain ⟨y, -, rfl⟩ := List.mem_map.1 hrow
    obtain ⟨x, -, rfl⟩ := List.mem_map.1 hv
    exact min_le_right _ _
  | advance | cut | spoilCut => cases hrow

/-- Settles O47, part by part: sizes, glyphs and text, the four kinds of picture, the curve, and the clamp of a page. -/
theorem driveValuesFollowCurve : Obligations.DriveValuesFollowCurve := by
  refine ⟨⟨rfl, rfl⟩, ?_, ?_, ?_, ?_, ?_, ?_, ?_, ?_, ?_, ?_, ?_⟩
  · intro f lines spacing text1 text2 texts p
    refine ⟨⟨rfl, rfl⟩, ?_⟩
    rintro (rfl | rfl) <;> exact ⟨rfl, rfl⟩
  · intro m f buffer x y spots
    exact ⟨⟨rfl, rfl⟩, rfl, fun hm hx hy => congrArg BitVec.toNat (content_spot hm hx hy)⟩
  · exact fun code column row => ⟨glyphGray_values code column row, glyphGray_paper,
      fun h => glyphGray_unprintable h column row⟩
  · exact fun text x0 y0 w h hw => ⟨fun j code dx dy => textGray_glyph hw, fun x y => textGray_outside hw⟩
  · intro f spacing x y dot line hnormal hwide htall hlarge hline
    have hdot : ∀ t : TitleSize, dot t = (t.dotWidth, t.dotHeight) := by
      intro t
      cases t <;> assumption
    simp only [hdot] at hline ⊢
    refine ⟨fun l => (hline l 0).symm, fun l1 l2 => ?_⟩
    obtain ⟨habove, hbelow⟩ := titleGray_two f l1 l2 spacing x y
    refine ⟨fun hy => (habove hy).trans (hline l1 0).symm, fun hy => (hbelow hy).trans ?_⟩
    rw [hline]
    simp only [line2Kept, decide_eq_true_eq]
    rfl
  · intro f lines x y
    exact ⟨fun text h => by simp only [Picture.gray, indexGray, h], fun h => by simp only [Picture.gray, indexGray, h]⟩
  · rintro f text1 text2 x y _ rfl
    exact placeholderGray_lines f text1 text2 x y
  · exact fun x0 y0 p d x y => driveRows_getElem?
  · rintro d g h _ hh lo hi _ hlo hhi rfl
    have hlevel : d.polarity.level g = h := by
      rw [hh]
      cases d.polarity <;> rfl
    obtain ⟨hmin, hmax⟩ := interpolation_between lo hi (h % 16) (Nat.mod_lt _ (by decide))
    refine ⟨by omega, by omega, ?_, ?_⟩
    · rw [driveValue, rawDrive, hlevel, interpolate_eq hlo hhi, maxDrive, min_comm]
    · rw [clamps, rawDrive, hlevel, interpolate_eq hlo hhi, maxDrive, decide_eq_true_eq]
  · exact fun step row hrow v => driveRows_le hrow
  · exact fun m f buffer d => pageClamps_iff

end Sys2Proof.Machine
end

section
/-! SUPPORT. The directory as a list in key order, and the records it names (R18, R29, R30). -/
namespace Sys2Proof.Machine

/-! ## Records by key -/

theorem mem_of_record {s : State} {key : Key} {r : Record} (h : s.record key = some r) :
    r ∈ s.directory ∧ r.key = key :=
  ⟨List.mem_of_find?_eq_some h, by simpa using List.find?_some h⟩

theorem record_eq_none_iff {s : State} {key : Key} : s.record key = none ↔ ∀ r ∈ s.directory, r.key ≠ key := by
  simp [State.record]

/-! ## Ascending keys -/

/-- Strictly ascending keys, as `State.DirectoryOrdered` asks of the directory (R18). -/
def Ascending (rs : List Record) : Prop := rs.Pairwise fun a b => a.key < b.key

theorem Ascending.filter {rs : List Record} (h : Ascending rs) (p : Record → Bool) : Ascending (rs.filter p) :=
  List.Pairwise.filter p h

theorem Ascending.map {rs : List Record} {g : Record → Record} (h : Ascending rs) (hg : ∀ r, (g r).key = r.key) :
    Ascending (rs.map g) := by
  rw [Ascending, List.pairwise_map]
  simp only [hg]
  exact h

/-- No key appears twice (R18). -/
theorem Ascending.nodup_keys {rs : List Record} (h : Ascending rs) : (rs.map (·.key)).Nodup :=
  List.pairwise_map.2 (List.Pairwise.imp (fun hlt => BitVec.ne_of_lt hlt) h)

theorem Ascending.nodup {rs : List Record} (h : Ascending rs) : rs.Nodup := h.nodup_keys.of_map

theorem Ascending.eq_of_key_eq {rs : List Record} (h : Ascending rs) {a b : Record} (ha : a ∈ rs) (hb : b ∈ rs)
    (hk : a.key = b.key) : a = b :=
  List.inj_on_of_nodup_map h.nodup_keys ha hb hk

/-- The least record that passes is the first that does. -/
theorem Ascending.find?_eq_some {rs : List Record} (h : Ascending rs) {p : Record → Bool} {r : Record} (hr : r ∈ rs)
    (hp : p r = true) (hleast : ∀ q ∈ rs, p q = true → r.key ≤ q.key) : rs.find? p = some r := by
  obtain ⟨before, after, rfl⟩ := List.append_of_mem hr
  refine List.find?_eq_some_iff_append.2 ⟨hp, before, after, rfl, fun q hq => ?_⟩
  have hlt : q.key < r.key := (List.pairwise_append.1 h).2.2 q hq r List.mem_cons_self
  cases hpq : p q with
  | false => rfl
  | true => exact absurd (hleast q (by simp [hq]) hpq) (BitVec.not_le.2 hlt)

/-- The greatest record is the last. -/
theorem Ascending.getLast?_eq_some {rs : List Record} (h : Ascending rs) {r : Record} (hr : r ∈ rs)
    (hgreatest : ∀ q ∈ rs, q.key ≤ r.key) : rs.getLast? = some r := by
  obtain ⟨before, after, rfl⟩ := List.append_of_mem hr
  have hafter : after = [] := List.eq_nil_iff_forall_not_mem.2 fun q hq => by
    have hlt : r.key < q.key := (List.pairwise_cons.1 (List.pairwise_append.1 h).2.1).1 q hq
    exact absurd (hgreatest q (by simp [hq])) (BitVec.not_le.2 hlt)
  rw [hafter, List.getLast?_concat]

/-! ## A record put at its place -/

theorem insertRecord_perm (r : Record) (rs : List Record) : (insertRecord r rs).Perm (r :: rs) := by
  induction rs with
  | nil => exact .refl _
  | cons x xs ih =>
    rw [insertRecord]
    split
    · exact .refl _
    · exact (ih.cons x).trans (.swap r x xs)

theorem Ascending.insertRecord {rs : List Record} (h : Ascending rs) {r : Record} (hnew : ∀ q ∈ rs, q.key ≠ r.key) :
    Ascending (insertRecord r rs) := by
  induction rs with
  | nil => exact List.pairwise_singleton _ _
  | cons x xs ih =>
    obtain ⟨hx, hxs⟩ := List.pairwise_cons.1 h
    rw [Sys2Proof.Machine.insertRecord]
    split
    next hlt =>
      refine List.pairwise_cons.2 ⟨fun q hq => ?_, h⟩
      rcases List.mem_cons.1 hq with rfl | hq
      · exact hlt
      · exact BitVec.lt_trans hlt (hx q hq)
    next hnlt =>
      refine List.pairwise_cons.2 ⟨fun q hq => ?_, ih hxs fun q hq => hnew q (List.mem_cons_of_mem x hq)⟩
      rcases List.mem_cons.1 ((insertRecord_perm r xs).mem_iff.1 hq) with rfl | hq
      · have hne := hnew x List.mem_cons_self
        bv_omega
      · exact hx q hq

/-- Changing the records of one key, where only the record inserted has it. -/
theorem map_insertRecord {r : Record} {rs : List Record} (g : Record → Record) (hg : (g r).key = r.key)
    (hnew : ∀ q ∈ rs, q.key ≠ r.key) :
    (insertRecord r rs).map (fun q => if q.key = r.key then g q else q) = insertRecord (g r) rs := by
  induction rs with
  | nil => simp [insertRecord]
  | cons x xs ih =>
    have hx : x.key ≠ r.key := hnew x List.mem_cons_self
    have hxs : ∀ q ∈ xs, q.key ≠ r.key := fun q hq => hnew q (List.mem_cons_of_mem x hq)
    have hkeep : xs.map (fun q => if q.key = r.key then g q else q) = xs :=
      (List.map_congr_left fun q hq => if_neg (hxs q hq)).trans (List.map_id' xs)
    simp only [insertRecord, hg]
    split
    · simp [hx, hkeep]
    · simp [hx, ih hxs]

/-- Removing the record of a key removes one record. -/
theorem Ascending.perm_cons_filter {rs : List Record} (h : Ascending rs) {r : Record} (hr : r ∈ rs) :
    rs.Perm (r :: rs.filter fun q => q.key != r.key) := by
  have herase : rs.filter (fun q => q.key != r.key) = rs.erase r := by
    rw [h.nodup.erase_eq_filter]
    refine List.filter_congr fun q hq => ?_
    have hiff : q.key = r.key ↔ q = r := ⟨fun hk => h.eq_of_key_eq hq hr hk, fun he => he ▸ rfl⟩
    rw [Bool.eq_iff_iff]
    simp [hiff]
  rw [herase]
  exact List.perm_cons_erase hr

end Sys2Proof.Machine
end

section
/-! SUPPORT. What a record derives from its contexts (R20, R23, R25 to R27), and the condition of R32. -/
namespace Sys2Proof.Machine

/-! ## The entries of a run of cells -/

theorem mem_entriesOf {x : Fiche} {first length : Nat} {o : Occupied} : o ∈ x.entriesOf first length ↔
    ∃ i, first ≤ i ∧ i < first + length ∧ x.cells[i]? = some (.occupied o) := by
  have hentry : ∀ e : Cell, e.entry = some o ↔ e = .occupied o := fun _ => entry_eq_some_iff
  simp only [Fiche.entriesOf, List.mem_filterMap, hentry, exists_eq_right]
  simp only [List.mem_iff_getElem?, List.getElem?_take, List.getElem?_drop]
  constructor
  · rintro ⟨j, hj⟩
    split at hj
    · exact ⟨first + j, by omega, by omega, hj⟩
    · cases hj
  · rintro ⟨i, hfirst, hlast, hi⟩
    refine ⟨i - first, ?_⟩
    rw [if_pos (by omega), Nat.add_sub_cancel' hfirst, hi]

theorem entriesOf_add (x : Fiche) (first m n : Nat) :
    x.entriesOf first (m + n) = x.entriesOf first m ++ x.entriesOf (first + m) n := by
  simp only [Fiche.entriesOf, List.take_add, List.filterMap_append, List.drop_drop]

/-- The entries of a run whose cells all are OCCUPIED. -/
theorem entriesOf_eq_map {x : Fiche} {first length : Nat} {o : Nat → Occupied}
    (h : ∀ i < length, x.cells[first + i]? = some (.occupied (o i))) :
    x.entriesOf first length = (List.range length).map o := by
  have hrun : (x.cells.drop first).take length = (List.range length).map fun i => Cell.occupied (o i) := by
    refine List.ext_getElem? fun i => ?_
    rw [List.getElem?_take, List.getElem?_drop, List.getElem?_map]
    split
    next hi => rw [h i hi, List.getElem?_range hi, Option.map_some]
    next hi => rw [List.getElem?_eq_none (by simpa using hi), Option.map_none]
  simp [Fiche.entriesOf, hrun, Function.comp_def, Cell.entry]

/-! ## Parts and contexts -/

theorem partEntries_of_fiche {s : State} {p : RecordPart} {x : Fiche} (h : s.fiche p.ctx = some x) (r : Record) :
    s.partEntries r p = x.entriesOf p.firstCell (p.pages * r.span.cells) := by
  simp [State.partEntries, h, RecordPart.length]

theorem partOn_eq_true_iff {s : State} {p : RecordPart} {i : FicheState} :
    s.partOn p i = true ↔ ∃ x, s.fiche p.ctx = some x ∧ x.state = i := by
  simp [State.partOn, Option.any_eq_true]

theorem allComposing_eq_true_iff {s : State} {r : Record} : s.allComposing r = true ↔
    ∀ p ∈ r.parts, ∃ x, s.fiche p.ctx = some x ∧ x.state = .composing := by
  simp [State.allComposing, Option.any_eq_true]

theorem partHas_eq_true_iff {s : State} {r : Record} {p : RecordPart} {x : Fiche} {i : ImageState}
    (h : s.fiche p.ctx = some x) :
    s.partHas r p i = true ↔ ∃ o ∈ x.entriesOf p.firstCell (p.pages * r.span.cells), o.image = i := by
  simp [State.partHas, partEntries_of_fiche h]

theorem recordState_eq_placed_iff {s : State} {r : Record} : s.recordState r = .placed ↔
    ∃ p ∈ r.parts, ∃ x, s.fiche p.ctx = some x ∧ x.state = .composing := by
  simp only [← partOn_eq_true_iff, ← List.any_eq_true, State.recordState]
  split
  next h => simp [h]
  next h => split <;> simp [h]

/-- When every part is EXPOSED, none is COMPOSING. -/
theorem recordState_eq_exposed_iff {s : State} {r : Record} : s.recordState r = .exposed ↔
    ∀ p ∈ r.parts, ∃ x, s.fiche p.ctx = some x ∧ x.state = .exposed := by
  simp only [← partOn_eq_true_iff, ← List.all_eq_true, State.recordState]
  split
  next h =>
    obtain ⟨p, hp, hcomposing⟩ := List.any_eq_true.1 h
    refine iff_of_false nofun fun hall => ?_
    obtain ⟨x, hx, hstate⟩ := partOn_eq_true_iff.1 hcomposing
    obtain ⟨y, hy, hstate'⟩ := partOn_eq_true_iff.1 (List.all_eq_true.1 hall p hp)
    rw [hx] at hy
    cases hy
    rw [hstate] at hstate'
    cases hstate'
  next => split <;> simp_all

theorem partFlags_of_fiche {s : State} {r : Record} {p : RecordPart} {x : Fiche} (h : s.fiche p.ctx = some x) :
    s.partFlags r p =
      (if ∃ o ∈ x.entriesOf p.firstCell (p.pages * r.span.cells), o.image = .missing then 1 else 0) +
      (if ∃ o ∈ x.entriesOf p.firstCell (p.pages * r.span.cells), o.image = .damaged then 2 else 0) +
      (if ∃ o ∈ x.entriesOf p.firstCell (p.pages * r.span.cells), o.cropped = true then 4 else 0) +
      if ∃ o ∈ x.entriesOf p.firstCell (p.pages * r.span.cells), o.saturated = true then 8 else 0 := by
  simp only [State.partFlags, partHas_eq_true_iff h, partEntries_of_fiche h, List.any_eq_true]

/-! ## Pages present -/

/-- The entries of a run of n pages of s cells each, all OCCUPIED. -/
theorem entriesOf_pages {x : Fiche} {first s n : Nat} {o : Nat → Nat → Occupied}
    (h : ∀ i < n, ∀ j < s, x.cells[first + i * s + j]? = some (.occupied (o i j))) :
    x.entriesOf first (n * s) = (List.range n).flatMap fun i => (List.range s).map (o i) := by
  induction n with
  | zero => simp [Fiche.entriesOf]
  | succ n ih =>
    rw [Nat.succ_mul, entriesOf_add, ih fun i hi => h i (by omega), entriesOf_eq_map (h n (by omega)), List.range_succ,
      List.flatMap_append, List.flatMap_singleton]

/-- The entries of one page in an image state, among those of a run of pages. -/
theorem filter_page {o : Nat → Nat → Occupied} {first s n : Nat} (hpage : ∀ i < n, ∀ j < s, (o i j).page = first + i)
    (i : Nat) (image : ImageState) :
    ((List.range n).flatMap fun i => (List.range s).map (o i)).filter
        (fun e => e.page == first + i && e.image == image) =
      if i < n then ((List.range s).map (o i)).filter fun e => e.image == image else [] := by
  induction n with
  | zero => rfl
  | succ n ih =>
    have hlast : ((List.range s).map (o n)).filter (fun e => e.page == first + i && e.image == image) =
        if i = n then ((List.range s).map (o n)).filter (fun e => e.image == image) else [] := by
      split
      next hi =>
        refine List.filter_congr fun e he => ?_
        obtain ⟨j, hj, rfl⟩ := List.mem_map.1 he
        simp [hpage n (by omega) j (List.mem_range.1 hj), hi]
      next hi =>
        refine List.filter_eq_nil_iff.2 fun e he => ?_
        obtain ⟨j, hj, rfl⟩ := List.mem_map.1 he
        simp [hpage n (by omega) j (List.mem_range.1 hj), Ne.symm hi]
    rw [List.range_succ, List.flatMap_append, List.flatMap_singleton, List.filter_append,
      ih fun i hi => hpage i (by omega), hlast]
    obtain h | rfl | h : i < n ∨ i = n ∨ n < i := by omega
    · simp [h, h.ne, Nat.lt_succ_of_lt h]
    · simp
    · simp [h.ne', show ¬i < n by omega, show ¬i < n + 1 by omega]

theorem pagesPresent_of_fiche {s : State} {r : Record} {p : RecordPart} {x : Fiche} {o : Nat → Nat → Occupied}
    (hx : s.fiche p.ctx = some x)
    (ho : ∀ i < p.pages, ∀ j < r.span.cells, x.cells[p.firstCell + i * r.span.cells + j]? = some (.occupied (o i j)) ∧
      (o i j).page = p.firstPage + i) :
    s.pagesPresent r p = (List.range p.pages).countP fun i =>
      (List.range r.span.cells).all fun j => (o i j).image == .present := by
  have hentries := (partEntries_of_fiche hx r).trans (entriesOf_pages fun i hi j hj => (ho i hi j hj).1)
  refine List.countP_congr fun i hi => ?_
  rw [hentries, filter_page fun i hi j hj => (ho i hi j hj).2, if_pos (List.mem_range.1 hi), beq_iff_eq]
  have hall := List.length_filter_eq_length_iff (p := fun e : Occupied => e.image == .present)
    (l := (List.range r.span.cells).map (o i))
  rw [List.length_map, List.length_range] at hall
  rw [hall]
  simp

/-! ## The condition of AMEND and WITHDRAW -/

theorem conditionHolds_iff {current expected : BitVec 16} {tests : Nat} :
    conditionHolds current expected tests = true ↔
      tests = 0 ∨ (tests.testBit 0 = true ∧ current.toNat < expected.toNat) ∨
        (tests.testBit 1 = true ∧ expected.toNat < current.toNat) ∨
        (tests.testBit 2 = true ∧ current.toNat = expected.toNat) := by
  simp only [conditionHolds, Bool.or_eq_true, Bool.and_eq_true, decide_eq_true_eq, beq_iff_eq, BitVec.lt_def,
    BitVec.toNat_inj, or_assoc]

/-- Settles O10, item by item. -/
theorem derivedRecordItems : Obligations.DerivedRecordItems := by
  refine ⟨fun s key => ⟨fun r => mem_of_record, record_eq_none_iff⟩, fun s r => allComposing_eq_true_iff, ⟨rfl, rfl⟩,
    fun x first length o => mem_entriesOf, fun s r p x image => partHas_eq_true_iff,
    fun current expected tests => conditionHolds_iff, fun s r => recordState_eq_placed_iff,
    fun s r _ => recordState_eq_exposed_iff, fun r => ?_, fun r p hp => ?_, fun r p q hp => ?_,
    fun s r p x o => pagesPresent_of_fiche, fun s r p x => partFlags_of_fiche⟩
  · simp [Record.pagesLost]
  · simp [Record.isSplit, hp]
  · simp [Record.isSplit, hp]

end Sys2Proof.Machine
end

section
/-! SUPPORT. LOOKUP (R28, R29) and FIND NEXT (R30, R31). -/
namespace Sys2Proof.Machine

/-! ## Absent items -/

theorem mayBeAbsent_cellsDone (x : Option Fiche) :
    mayBeAbsent 2 ((x.filter fun f => f.state == .exposing).map fun f => bytesOf 2 f.cellsDone) =
      match x with
      | some x => if x.state = .exposing then 1 :: bytesOf 2 x.cellsDone else [0, 0, 0]
      | none => [0, 0, 0] := by
  cases x with
  | none => rfl
  | some x => by_cases h : x.state = .exposing <;> simp [Option.filter, h, mayBeAbsent, List.replicate]

/-! ## LOOKUP -/

theorem formatOf_of_fiche {s : State} {c : CtxId} {x : Fiche} (h : s.fiche c = some x) : s.formatOf c = x.format := by
  simp [State.formatOf, h]

theorem lookup_held {f : Frame} {s : State} {r : Record} (h : s.record (fieldKey f.body 0) = some r) :
    lookup f s = (s, some (.ok, s.recordBytes r)) := by
  simp only [lookup, h]

/-- LOOKUP of a key that is not held, by its neighbours. -/
theorem lookup_absent {f : Frame} {s : State} (h : ∀ r ∈ s.directory, r.key ≠ fieldKey f.body 0) {below above : Option Key}
    (hbelow : s.predecessor (fieldKey f.body 0) = below) (habove : s.successor (fieldKey f.body 0) = above) :
    lookup f s = (s, some (.notFound, (match below, above with
        | none, none => ([0] : List Byte)
        | none, some _ => [1]
        | some _, none => [2]
        | some _, some _ => [3]) ++
      mayBeAbsent 6 (below.map fun k => bytesOf 6 k.toNat) ++ mayBeAbsent 6 (above.map fun k => bytesOf 6 k.toNat))) := by
  simp only [lookup, record_eq_none_iff.2 h, State.positionBytes, hbelow, habove]
  cases below <;> cases above <;> rfl

theorem predecessor_eq_none {s : State} {key : Key} (h : ∀ r ∈ s.directory, key ≤ r.key) : s.predecessor key = none := by
  have hnone : s.directory.filter (fun r => decide (r.key < key)) = [] :=
    List.filter_eq_nil_iff.2 fun r hr => by simpa using h r hr
  rw [State.predecessor, hnone]
  rfl

theorem successor_eq_none {s : State} {key : Key} (h : ∀ r ∈ s.directory, r.key ≤ key) : s.successor key = none := by
  have hnone : s.directory.find? (fun r => decide (key < r.key)) = none :=
    List.find?_eq_none.2 fun r hr => by simpa using h r hr
  rw [State.successor, hnone]
  rfl

/-- The greatest record below a key is its predecessor. -/
theorem predecessor_eq_some {s : State} {key : Key} {a : Record} (hs : s.DirectoryOrdered) (ha : a ∈ s.directory)
    (hlt : a.key < key) (hgreatest : ∀ r ∈ s.directory, r.key < key → r.key ≤ a.key) :
    s.predecessor key = some a.key := by
  have hlast : (s.directory.filter fun r => decide (r.key < key)).getLast? = some a :=
    (Ascending.filter hs.1 _).getLast?_eq_some (List.mem_filter.2 ⟨ha, by simpa using hlt⟩) fun r hr => by
      obtain ⟨hr, hrlt⟩ := List.mem_filter.1 hr
      exact hgreatest r hr (by simpa using hrlt)
  rw [State.predecessor, hlast]
  rfl

/-- The least record above a key is its successor. -/
theorem successor_eq_some {s : State} {key : Key} {b : Record} (hs : s.DirectoryOrdered) (hb : b ∈ s.directory)
    (hlt : key < b.key) (hleast : ∀ r ∈ s.directory, key < r.key → b.key ≤ r.key) : s.successor key = some b.key := by
  have hfirst : s.directory.find? (fun r => decide (key < r.key)) = some b :=
    Ascending.find?_eq_some hs.1 hb (by simpa using hlt) fun r hr hr' => hleast r hr (by simpa using hr')
  rw [State.successor, hfirst]
  rfl

/-- Settles O11: the items one by one, and the reply executed. -/
theorem lookupReportsHeldRecord : Obligations.LookupReportsHeldRecord := by
  refine ⟨⟨rfl, rfl, fun _ => rfl, fun s c x => formatOf_of_fiche⟩, fun s r => ?_,
    fun s f rest r hx hr => execute_answered hx (lookup_held hr)⟩
  have hparts : s.partBytes r = fun p => _ := funext fun p =>
    congrArg (_ ++ ·) (mayBeAbsent_cellsDone (s.fiche p.ctx))
  rw [State.recordBytes, hparts]
  rfl

/-- Settles O12: the neighbours of the key in each of the four positions. -/
theorem lookupPlacesAbsentKey : Obligations.LookupPlacesAbsentKey := by
  rintro s f rest _ hx hs rfl habsent
  refine ⟨fun hempty => execute_answered hx ?_, fun b hb hlt hleast => execute_answered hx ?_,
    fun a ha hlt hgreatest => execute_answered hx ?_, fun a ha b hb hbelow habove hgap => execute_answered hx ?_⟩
  · exact lookup_absent habsent (predecessor_eq_none (by simp [hempty])) (successor_eq_none (by simp [hempty]))
  · refine lookup_absent habsent (predecessor_eq_none fun r hr => ?_) (successor_eq_some hs hb hlt fun r hr _ => hleast r hr)
    have := hleast r hr
    bv_omega
  · refine lookup_absent habsent (predecessor_eq_some hs ha hlt fun r hr _ => hgreatest r hr) (successor_eq_none fun r hr => ?_)
    have := hgreatest r hr
    bv_omega
  · refine lookup_absent habsent (predecessor_eq_some hs ha hbelow fun r hr hr' => ?_)
      (successor_eq_some hs hb habove fun r hr hr' => ?_)
    all_goals
      have := hgap r hr
      bv_omega

/-! ## FIND NEXT -/

theorem laneFilterOf_eq_none_iff {n : Nat} : laneFilterOf n = none ↔ 3 < n ∧ n ≠ 255 := by
  unfold laneFilterOf
  split
  next h => simp [h]
  next h => simp [laneOf_eq_none_iff, h]; omega

/-- A lane filter in range passes every lane, or the lane it names. -/
theorem laneFilterOf_eq_some {n : Nat} (h : n ≤ 3 ∨ n = 255) : ∃ lane, laneFilterOf n = some lane ∧
    ∀ l : LaneId, lane.all (· == l) = true ↔ n = 255 ∨ l.val = n := by
  unfold laneFilterOf
  split
  next hall => exact ⟨none, rfl, by simp [hall]⟩
  next hone =>
    have hn : n < 4 := by omega
    have hlane : laneOf n = some ⟨n, hn⟩ := laneOf_eq_some_iff.2 rfl
    refine ⟨some ⟨n, hn⟩, by rw [hlane, Option.map_some], fun l => ?_⟩
    simp only [Option.all_some, beq_iff_eq, Fin.ext_iff]
    omega

theorem findNext_malformed {f : Frame} {s : State}
    (h : (3 < field f.body 6 1 ∧ field f.body 6 1 ≠ 255) ∨ field f.body 7 1 = 0 ∨ 7 < field f.body 7 1) :
    findNext f s = s.refuse .malformed := by
  unfold findNext
  dsimp only
  split
  next => rfl
  next lane hlane =>
    rcases h with h | h
    · rw [laneFilterOf_eq_none_iff.2 h] at hlane
      cases hlane
    · rw [if_pos h]

/-- What FIND NEXT searches for: a record above the carried key that passes both filters (R30). -/
def FindNextPasses (s : State) (f : Frame) (r : Record) : Prop :=
  fieldKey f.body 0 < r.key ∧ (field f.body 6 1 = 255 ∨ r.lane.val = field f.body 6 1) ∧
    (field f.body 7 1).testBit (s.recordState r).code = true

/-- A FIND NEXT that is not refused answers the first record that passes. -/
theorem findNext_searched {f : Frame} {s : State} (hlane : field f.body 6 1 ≤ 3 ∨ field f.body 6 1 = 255)
    (hset : field f.body 7 1 ≠ 0) (hset' : field f.body 7 1 ≤ 7) :
    ∃ passes : Record → Bool, (∀ r, passes r = true ↔ FindNextPasses s f r) ∧
      findNext f s = match s.directory.find? passes with
        | some r => (s, some (.ok, s.recordBytes r))
        | none => s.refuse .notFound := by
  obtain ⟨lane, hof, hpasses⟩ := laneFilterOf_eq_some hlane
  refine ⟨fun r => decide (fieldKey f.body 0 < r.key) && lane.all (· == r.lane) &&
    stateSetNames (field f.body 7 1) (s.recordState r), fun r => ?_, ?_⟩
  · simp only [Bool.and_eq_true, decide_eq_true_eq, hpasses, stateSetNames, FindNextPasses, and_assoc]
  · simp only [findNext, hof]
    exact if_neg (by omega)

/-- Settles O13: the search finds the least record that passes, in a directory in key order. -/
theorem findNextGivesFirstAbove : Obligations.FindNextGivesFirstAbove := by
  intro s f rest hx
  refine ⟨fun h => execute_answered hx (findNext_malformed h), fun hlane hset hset' hs => ?_⟩
  obtain ⟨passes, hpasses, hfind⟩ := findNext_searched (s := s) hlane hset hset'
  refine ⟨fun r hr hkey hl hstate hleast => execute_answered hx ?_, fun hnone => execute_answered hx ?_⟩
  · have hfirst : s.directory.find? passes = some r :=
      Ascending.find?_eq_some hs.1 hr ((hpasses r).2 ⟨hkey, hl, hstate⟩) fun q hq hq' => by
        obtain ⟨hqkey, hql, hqstate⟩ := (hpasses q).1 hq'
        exact hleast q hq hqkey hql hqstate
    simp only [hfind, hfirst]
  · have hno : s.directory.find? passes = none := List.find?_eq_none.2 fun q hq hq' => by
      obtain ⟨hqkey, hql, hqstate⟩ := (hpasses q).1 hq'
      rw [hnone q hq hqkey hql] at hqstate
      cases hqstate
    simp only [hfind, hno, State.refuse]

end Sys2Proof.Machine
end

section
/-! SUPPORT. WITHDRAW (R36, R37) and PURGE (R38, R39): records removed with their cells and index entries. -/
namespace Sys2Proof.Machine

/-! ## The contexts of a record's parts, changed part by part -/

/-- The context of each part changed in turn: the shape of `State.withdrawRecord` and `State.rekey`. -/
def State.modifyParts (s : State) (ps : List RecordPart) (g : RecordPart → Fiche → Fiche) : State :=
  ps.foldl (fun s p => s.modifyFiche p.ctx (g p)) s

theorem modifyParts_frame (ps : List RecordPart) (g : RecordPart → Fiche → Fiche) : ∀ s : State,
    s.modifyParts ps g = { s with composer := { s.composer with contexts := (s.modifyParts ps g).composer.contexts } } := by
  induction ps with
  | nil => exact fun _ => rfl
  | cons p ps ih => exact fun s => ih (s.modifyFiche p.ctx (g p))

@[simp] theorem modifyParts_directory (s : State) (ps : List RecordPart) (g : RecordPart → Fiche → Fiche) :
    (s.modifyParts ps g).directory = s.directory := by rw [modifyParts_frame]

/-- A context takes the changes of the parts on it, in their order. -/
theorem fiche_modifyParts (ps : List RecordPart) (g : RecordPart → Fiche → Fiche) (c : CtxId) : ∀ s : State,
    (s.modifyParts ps g).fiche c =
      (s.fiche c).map fun x => (ps.filter fun p => p.ctx == c).foldl (fun x p => g p x) x := by
  induction ps with
  | nil =>
    intro s
    cases h : s.fiche c <;> simp [State.modifyParts, h]
  | cons p ps ih =>
    intro s
    have hstep : s.modifyParts (p :: ps) g = (s.modifyFiche p.ctx (g p)).modifyParts ps g := rfl
    rw [hstep, ih, State.fiche_modifyFiche]
    by_cases h : p.ctx = c
    · subst h
      simp [Function.comp_def]
    · simp [h, Ne.symm h]

/-! ## A record withdrawn -/

/-- The fiche of a part that is withdrawn (R37). -/
def Fiche.withdrawPart (span : Span) (p : RecordPart) (x : Fiche) : Fiche :=
  { x with cells := freeRun x.cells p.firstCell (p.length span), indexUsed := x.indexUsed - 1 }

theorem withdrawRecord_eq (s : State) (r : Record) :
    s.withdrawRecord r = (s.modifyParts r.parts (Fiche.withdrawPart r.span)).removeRecord r.key := rfl

theorem withdrawRecord_frame (s : State) (r : Record) : s.withdrawRecord r = { s with
    directory := s.directory.filter fun q => q.key != r.key
    composer := { s.composer with contexts := (s.withdrawRecord r).composer.contexts } } := by
  rw [withdrawRecord_eq, State.removeRecord, modifyParts_frame]

theorem fiche_withdrawRecord (s : State) (r : Record) (c : CtxId) : (s.withdrawRecord r).fiche c =
    (s.fiche c).map fun x => (r.parts.filter fun p => p.ctx == c).foldl (fun x p => x.withdrawPart r.span p) x :=
  fiche_modifyParts r.parts (Fiche.withdrawPart r.span) c s

theorem recordBuffers_eq (s : State) (r : Record) : s.recordBuffers r = r.parts.flatMap fun p =>
    match s.fiche p.ctx with
    | some x => (x.entriesOf p.firstCell (p.pages * r.span.cells)).filterMap (·.buffer)
    | none => [] := by
  refine congrArg (fun g => r.parts.flatMap g) (funext fun p => ?_)
  cases s.fiche p.ctx <;> rfl

/-! ## WITHDRAW -/

section
variable {f : Frame} {s : State} {r : Record}

theorem withdraw_malformed (h : 7 < field f.body 8 1) : withdraw f s = s.refuse .malformed := by
  simp [withdraw, testSetValid, h]

theorem withdraw_notFound (h : field f.body 8 1 ≤ 7) (hr : s.record (fieldKey f.body 0) = none) :
    withdraw f s = s.refuse .notFound := by
  simp [withdraw, testSetValid, h, hr]

theorem withdraw_frozen (h : field f.body 8 1 ≤ 7) (hr : s.record (fieldKey f.body 0) = some r)
    (hc : s.allComposing r = false) : withdraw f s = s.refuse .frozen := by
  simp [withdraw, testSetValid, h, hr, hc]

theorem withdraw_condition (h : field f.body 8 1 ≤ 7) (hr : s.record (fieldKey f.body 0) = some r)
    (hc : s.allComposing r = true)
    (ht : conditionHolds r.revision (BitVec.ofNat 16 (field f.body 6 2)) (field f.body 8 1) = false) :
    withdraw f s = s.refuseCondition r := by
  simp [withdraw, testSetValid, h, hr, hc, ht]

theorem withdraw_removed (h : field f.body 8 1 ≤ 7) (hr : s.record (fieldKey f.body 0) = some r)
    (hc : s.allComposing r = true)
    (ht : conditionHolds r.revision (BitVec.ofNat 16 (field f.body 6 2)) (field f.body 8 1) = true) :
    withdraw f s = ((s.withdrawRecord r).stallTest, some (.ok, bytesOf 6 r.key.toNat ++ bytesOf 2 r.revision.toNat ++
      bytesOf 2 r.cellCount ++ bytesOf 2 (s.recordBuffers r).length)) := by
  simp [withdraw, testSetValid, h, hr, hc, ht, (mem_of_record hr).2]

end

/-- Settles O18: each refusal under the negation of those before it, and the removal context by context. -/
theorem withdrawRemovesRecord : Obligations.WithdrawRemovesRecord := by
  refine ⟨recordBuffers_eq, mapCells_getElem?, fun s f rest hx => ⟨fun h => execute_answered hx (withdraw_malformed h),
    fun h hr => execute_answered hx (withdraw_notFound h hr), fun r h hr => ⟨fun hc =>
      execute_answered hx (withdraw_frozen h hr hc), fun hc ht => execute_answered hx (withdraw_condition h hr hc ht),
    fun hc ht => ⟨s.withdrawRecord r, execute_answered hx (withdraw_removed h hr hc ht), withdrawRecord_frame s r,
      fiche_withdrawRecord s r⟩⟩⟩⟩

/-! ## What withdrawals leave of a fiche -/

/-- The part holds cell i of its context (R20). -/
def RecordPart.Covers (span : Span) (p : RecordPart) (i : Nat) : Prop :=
  p.firstCell ≤ i ∧ i < p.firstCell + p.pages * span.cells

/-- The fiche y is x with the cells of `hit` made FREE and n index entries returned (R37). -/
structure Withdrawn (hit : Nat → Prop) (n : Nat) (x y : Fiche) : Prop where
  fiche : y = { x with cells := y.cells, indexUsed := x.indexUsed - n }
  freed : ∀ i, hit i → y.cells[i]? = x.cells[i]?.map fun _ => .free
  kept : ∀ i, ¬hit i → y.cells[i]? = x.cells[i]?

theorem Withdrawn.refl (x : Fiche) {hit : Nat → Prop} (h : ∀ i, ¬hit i) : Withdrawn hit 0 x x :=
  ⟨rfl, fun i hi => absurd hi (h i), fun _ _ => rfl⟩

theorem Withdrawn.trans {hit hit' both : Nat → Prop} {m n k : Nat} {x y z : Fiche} (h : Withdrawn hit m x y)
    (g : Withdrawn hit' n y z) (hboth : ∀ i, both i ↔ hit i ∨ hit' i) (hk : k = m + n) : Withdrawn both k x z := by
  subst hk
  refine ⟨?_, fun i hi => ?_, fun i hi => ?_⟩
  · rw [g.fiche, h.fiche]
    simp only [Nat.sub_sub]
  · by_cases hi' : hit' i
    · rw [g.freed i hi']
      by_cases hi'' : hit i
      · simp [h.freed i hi'', Function.comp_def]
      · rw [h.kept i hi'']
    · rw [g.kept i hi', h.freed i (((hboth i).1 hi).resolve_right hi')]
  · rw [hboth, not_or] at hi
    rw [g.kept i hi.2, h.kept i hi.1]

theorem withdrawn_withdrawPart (span : Span) (p : RecordPart) (x : Fiche) :
    Withdrawn (p.Covers span) 1 x (x.withdrawPart span p) := by
  have hcells (i : Nat) : (x.withdrawPart span p).cells[i]? = _ := mapCells_getElem? _ x.cells i
  refine ⟨rfl, fun i hi => ?_, fun i hi => ?_⟩
  · exact (hcells i).trans (congrArg (Option.map · x.cells[i]?) (funext fun _ => if_pos hi))
  · refine (hcells i).trans ?_
    cases x.cells[i]? with
    | none => rfl
    | some e => exact congrArg some (if_neg hi)

theorem withdrawn_parts (span : Span) (ps : List RecordPart) : ∀ x : Fiche,
    Withdrawn (fun i => ∃ p ∈ ps, p.Covers span i) ps.length x (ps.foldl (fun x p => x.withdrawPart span p) x) := by
  induction ps with
  | nil => exact fun x => .refl x (by simp)
  | cons p ps ih =>
    exact fun x => (withdrawn_withdrawPart span p x).trans (ih _) (by simp) (by simp [Nat.add_comm])

/-! ## Many records withdrawn -/

/-- Cell i of context c belongs to one of the records. -/
def CoversAny (rs : List Record) (c : CtxId) (i : Nat) : Prop := ∃ r ∈ rs, ∃ p ∈ r.parts, p.ctx = c ∧ p.Covers r.span i

theorem foldl_withdrawRecord_frame (rs : List Record) : ∀ s : State, rs.foldl State.withdrawRecord s = { s with
    directory := s.directory.filter fun q => rs.all fun r => q.key != r.key
    composer := { s.composer with contexts := (rs.foldl State.withdrawRecord s).composer.contexts } } := by
  induction rs with
  | nil => exact fun s => by simp
  | cons r rs ih =>
    intro s
    rw [List.foldl_cons, ih, withdrawRecord_frame]
    simp [List.filter_filter, Bool.and_comm]

theorem fiche_foldl_withdrawRecord_none {c : CtxId} (rs : List Record) : ∀ {s : State}, s.fiche c = none →
    (rs.foldl State.withdrawRecord s).fiche c = none := by
  induction rs with
  | nil => exact fun h => h
  | cons r rs ih => exact fun h => ih (by rw [fiche_withdrawRecord, h, Option.map_none])

theorem fiche_foldl_withdrawRecord {c : CtxId} (rs : List Record) : ∀ {s : State} {x : Fiche}, s.fiche c = some x →
    ∃ y, (rs.foldl State.withdrawRecord s).fiche c = some y ∧
      Withdrawn (CoversAny rs c) (rs.map fun r => r.parts.countP fun p => p.ctx == c).sum x y := by
  induction rs with
  | nil => exact fun {_} {x} h => ⟨x, h, .refl x (by simp [CoversAny])⟩
  | cons r rs ih =>
    intro s x h
    obtain ⟨y, hy, hrest⟩ := ih ((fiche_withdrawRecord s r c).trans (congrArg (Option.map _) h))
    refine ⟨y, hy, (withdrawn_parts r.span _ x).trans hrest (fun i => ?_) ?_⟩
    · simp [CoversAny, and_assoc]
    · rw [List.map_cons, List.sum_cons, List.countP_eq_length_filter]

/-! ## PURGE -/

theorem purge_malformed {f : Frame} {s : State} (h : 3 < field f.body 12 1) (h' : field f.body 12 1 ≠ 255) :
    purge f s = s.refuse .malformed := by
  simp only [purge, laneFilterOf_eq_none_iff.2 ⟨h, h'⟩]

/-- A PURGE with a lane filter in range withdraws the records it selects that are wholly on COMPOSING contexts. -/
theorem purge_withdrawn {f : Frame} {s : State} {selected : Record → Bool}
    (hsel : ∀ r, selected r = true ↔ r.key &&& fieldKey f.body 6 = fieldKey f.body 0 &&& fieldKey f.body 6 ∧
      (field f.body 12 1 = 255 ∨ r.lane.val = field f.body 12 1))
    (hlane : field f.body 12 1 ≤ 3 ∨ field f.body 12 1 = 255) :
    purge f s = (((s.directory.filter fun r => selected r && s.allComposing r).foldl State.withdrawRecord s).stallTest,
      some (.ok, bytesOf 2 (s.directory.countP fun r => selected r && s.allComposing r) ++
        bytesOf 2 (s.directory.countP fun r => selected r && !s.allComposing r))) := by
  obtain ⟨lane, hof, hpasses⟩ := laneFilterOf_eq_some hlane
  have hselects : purgeSelects (fieldKey f.body 0) (fieldKey f.body 6) lane = selected := by
    funext r
    rw [Bool.eq_iff_iff, hsel, purgeSelects, Bool.and_eq_true, beq_iff_eq, hpasses]
  simp only [purge, hof, hselects, List.partition_eq_filter_filter, List.filter_filter, List.countP_eq_length_filter,
    Function.comp_apply, Bool.and_comm]

/-- Removing the records that pass, one by one by their keys, removes just those. -/
theorem Ascending.filter_keys {rs : List Record} (h : Ascending rs) (p : Record → Bool) :
    rs.filter (fun q => (rs.filter p).all fun r => q.key != r.key) = rs.filter fun r => !p r := by
  refine List.filter_congr fun q hq => ?_
  rw [Bool.eq_iff_iff]
  simp only [List.all_eq_true, List.mem_filter, bne_iff_ne, and_imp, Bool.not_eq_true']
  constructor
  · intro hall
    by_contra hp
    exact hall q hq (by simpa using hp) rfl
  · intro hp r hr hpr hk
    rw [h.eq_of_key_eq hq hr hk, hpr] at hp
    cases hp

/-- Settles O19: the records withdrawn in one fold, what it leaves of the directory and of each context. -/
theorem purgeWithdrawsSelected : Obligations.PurgeWithdrawsSelected := by
  intro s f rest hx
  refine ⟨fun h h' => execute_answered hx (purge_malformed h h'), fun selected hs hsel hlane =>
    ⟨_, execute_answered hx (purge_withdrawn hsel hlane), ?_, fun c hc => fiche_foldl_withdrawRecord_none _ hc,
      fun c x hc => ?_⟩⟩
  · rw [← Ascending.filter_keys hs.1]
    exact foldl_withdrawRecord_frame _ s
  · obtain ⟨y, hy, hw⟩ := fiche_foldl_withdrawRecord (s.directory.filter fun r => selected r && s.allComposing r) hc
    refine ⟨y, hy, hw.fiche, fun i => ?_⟩
    have hiff : CoversAny (s.directory.filter fun r => selected r && s.allComposing r) c i ↔
        ∃ r ∈ s.directory, selected r = true ∧ s.allComposing r = true ∧ ∃ p ∈ r.parts, p.ctx = c ∧
          p.firstCell ≤ i ∧ i < p.firstCell + p.pages * r.span.cells := by
      simp [CoversAny, RecordPart.Covers, and_assoc]
    by_cases hi : CoversAny (s.directory.filter fun r => selected r && s.allComposing r) c i
    · simp only [hw.freed i hi, hiff.1 hi, if_true]
    · simp only [hw.kept i hi, mt hiff.2 hi, if_false, Option.map_id']

end Sys2Proof.Machine
end

section
/-! SUPPORT. RELEASE (R22, R133 to R135): a context freed and the parts on it taken from their records. -/
namespace Sys2Proof.Machine

/-! ## Operands -/

theorem ctxOf_eq_some_iff {n : Nat} {c : CtxId} : ctxOf n = some c ↔ n = c.val := by
  unfold ctxOf
  split
  · simp [Fin.ext_iff]
  · simp; omega

theorem ctxOf_eq_none_iff {n : Nat} : ctxOf n = none ↔ 8 ≤ n := by
  unfold ctxOf
  split <;> simp <;> omega

theorem optionalSerialOf_eq_none_iff {n : Nat} : optionalSerialOf n = none ↔ 999999 < n ∧ n ≠ 0xFFFFFF := by
  unfold optionalSerialOf
  split
  next h => simp [h]
  next h => simp [h]

/-- A carried serial is absent, or it is the number itself. -/
theorem optionalSerialOf_eq_some {n : Nat} (h : n ≤ 999999 ∨ n = 0xFFFFFF) : ∃ serial, optionalSerialOf n = some serial ∧
    ∀ m, serial.any (· != m) = true ↔ n ≠ 0xFFFFFF ∧ n ≠ m := by
  unfold optionalSerialOf
  split
  next hall => exact ⟨none, rfl, by simp [hall]⟩
  next hone => exact ⟨some n, if_pos (by omega), by simp [hone]⟩

theorem contextCode_of_fiche {s : State} {c : CtxId} {x : Fiche} (h : s.fiche c = some x) :
    s.contextCode c = x.state.code := by
  simp [State.contextCode, h]

/-! ## Counting what a release touches -/

theorem onContext_iff {c : CtxId} {r : Record} : r.onContext c = r.parts.any fun p => p.ctx == c := rfl

/-- A record that is not on the context has no part there to count. -/
theorem sum_countP_filter_onContext (c : CtxId) (rs : List Record) :
    ((rs.filter (Record.onContext c)).map fun r => r.parts.countP fun p => p.ctx == c).sum =
      (rs.map fun r => r.parts.countP fun p => p.ctx == c).sum := by
  induction rs with
  | nil => rfl
  | cons r rs ih =>
    rw [List.filter_cons]
    split
    next h => simp [ih]
    next h =>
      have hzero : r.parts.countP (fun p => p.ctx == c) = 0 :=
        List.countP_eq_zero.2 fun p hp hc => h (List.any_eq_true.2 ⟨p, hp, hc⟩)
      simp [ih, hzero]

/-- The records left in place are those with another part. -/
theorem countP_releaseFrom (c : CtxId) (exposed : Bool) (rs : List Record) :
    ((rs.filter (Record.onContext c)).map (Record.releaseFrom c exposed)).countP (fun r => !r.parts.isEmpty) =
      rs.countP fun r => r.parts.any (fun p => p.ctx == c) && r.parts.any fun p => p.ctx != c := by
  rw [List.countP_map, List.countP_filter]
  refine List.countP_congr fun r _ => ?_
  have hleft : (!(r.releaseFrom c exposed).parts.isEmpty) = r.parts.any fun p => p.ctx != c := by
    rw [Bool.eq_iff_iff]
    simp [Record.releaseFrom, List.filter_eq_nil_iff]
  rw [Function.comp_apply, hleft, onContext_iff, Bool.and_comm]

/-- The records that are not left are those with no other part. -/
theorem length_onContext_sub (c : CtxId) (rs : List Record) :
    (rs.filter (Record.onContext c)).length -
        (rs.countP fun r => r.parts.any (fun p => p.ctx == c) && r.parts.any fun p => p.ctx != c) =
      rs.countP fun r => r.parts.any (fun p => p.ctx == c) && r.parts.all fun p => p.ctx == c := by
  have hsplit := List.length_eq_countP_add_countP (fun r : Record => r.parts.any fun p => p.ctx != c)
    (l := rs.filter (Record.onContext c))
  have hother : (rs.filter (Record.onContext c)).countP (fun r => r.parts.any fun p => p.ctx != c) =
      rs.countP fun r => r.parts.any (fun p => p.ctx == c) && r.parts.any fun p => p.ctx != c := by
    rw [List.countP_filter]
    exact List.countP_congr fun r _ => by rw [Bool.and_comm, onContext_iff]
  have hnone : (rs.filter (Record.onContext c)).countP (fun r => ¬(r.parts.any fun p => p.ctx != c) = true) =
      rs.countP fun r => r.parts.any (fun p => p.ctx == c) && r.parts.all fun p => p.ctx == c := by
    rw [List.countP_filter]
    refine List.countP_congr fun r _ => ?_
    rw [onContext_iff, Bool.and_comm]
    simp
  omega

/-- The directory after a release, record by record (R22, R134). -/
theorem releaseRecords_eq (c : CtxId) (state : FicheState) (rs : List Record) :
    releaseRecords c (state == .exposed) rs = (rs.map fun r =>
      if r.parts.any (fun p => p.ctx == c) then
        { r with
          parts := r.parts.filter fun p => p.ctx != c
          released := r.released + if state = .exposed then
            ((r.parts.filter fun p => p.ctx == c).map (·.pages)).sum else 0 }
      else r).filter fun r => !r.parts.isEmpty := by
  have hrelease : Record.releaseFrom c (state == .exposed) = fun r => { r with
      parts := r.parts.filter fun p => p.ctx != c
      released := r.released + if state = .exposed then
        ((r.parts.filter fun p => p.ctx == c).map (·.pages)).sum else 0 } := by
    funext r
    by_cases h : state = .exposed <;> simp [Record.releaseFrom, h]
  rw [releaseRecords, hrelease]
  rfl

/-! ## RELEASE -/

theorem countByte_eq (s : State) (n : Nat) : ∃ byte : Byte, (n < 256 → byte = BitVec.ofNat 8 n) ∧
    s.countByte n = ([byte], { s with free := s.free + if n < 256 then 0 else 1 }) := by
  by_cases h : n < 256
  · exact ⟨BitVec.ofNat 8 n, fun _ => rfl, by simp [State.countByte, h, bytesOf]⟩
  · exact ⟨Config.freeByte s.free, fun h' => absurd h' h, by simp [State.countByte, h]⟩

theorem release_malformed {f : Frame} {s : State}
    (h : 8 ≤ field f.body 0 1 ∨ (999999 < field f.body 1 3 ∧ field f.body 1 3 ≠ 0xFFFFFF)) :
    release f s = s.refuse .malformed := by
  unfold release
  split
  next c serial hc hserial =>
    rcases h with h | h
    · rw [ctxOf_eq_none_iff.2 h] at hc
      cases hc
    · rw [optionalSerialOf_eq_none_iff.2 h] at hserial
      cases hserial
  next => rfl

section
variable {f : Frame} {s : State} {c : CtxId} {x : Fiche}

theorem release_free (hc : field f.body 0 1 = c.val) (hserial : field f.body 1 3 ≤ 999999 ∨ field f.body 1 3 = 0xFFFFFF)
    (h : s.fiche c = none) : release f s = (s, some (.state, [0])) := by
  obtain ⟨serial, hof, -⟩ := optionalSerialOf_eq_some hserial
  simp only [release, ctxOf_eq_some_iff.2 hc, hof, h, State.contextCode]
  rfl

theorem release_state (hc : field f.body 0 1 = c.val) (hserial : field f.body 1 3 ≤ 999999 ∨ field f.body 1 3 = 0xFFFFFF)
    (hx : s.fiche c = some x)
    (h : x.state = .composing ∨ (field f.body 1 3 ≠ 0xFFFFFF ∧ field f.body 1 3 ≠ x.serial)) :
    release f s = (s, some (.state, bytesOf 1 x.state.code)) := by
  obtain ⟨serial, hof, hdiffers⟩ := optionalSerialOf_eq_some hserial
  simp only [release, ctxOf_eq_some_iff.2 hc, hof, hx, hdiffers, contextCode_of_fiche hx]
  exact if_pos h

theorem release_busy (hc : field f.body 0 1 = c.val) (hserial : field f.body 1 3 ≤ 999999 ∨ field f.body 1 3 = 0xFFFFFF)
    (hx : s.fiche c = some x) (hmatch : field f.body 1 3 = 0xFFFFFF ∨ field f.body 1 3 = x.serial)
    (h : x.state = .closing ∨ x.state = .queued ∨ x.state = .exposing) :
    release f s = (s, some (.busy, bytesOf 1 x.state.code)) := by
  obtain ⟨serial, hof, hdiffers⟩ := optionalSerialOf_eq_some hserial
  simp only [release, ctxOf_eq_some_iff.2 hc, hof, hx, hdiffers, contextCode_of_fiche hx]
  have hstate : x.state ≠ .composing := by
    rcases h with h | h | h <;> simp [h]
  rw [if_neg (not_or.2 ⟨hstate, by omega⟩), if_pos h]

/-- A RELEASE that frees its context. -/
theorem release_freed (hc : field f.body 0 1 = c.val) (hserial : field f.body 1 3 ≤ 999999 ∨ field f.body 1 3 = 0xFFFFFF)
    (hx : s.fiche c = some x) (hmatch : field f.body 1 3 = 0xFFFFFF ∨ field f.body 1 3 = x.serial)
    (h : x.state = .exposed ∨ x.state = .failed) :
    ∃ byte : Byte, (s.partsOn c < 256 → byte = BitVec.ofNat 8 (s.partsOn c)) ∧
      release f s = ((({ s.setContext c none with
          directory := releaseRecords c (x.state == .exposed) s.directory
          free := s.free + if s.partsOn c < 256 then 0 else 1 } : State).stallTest),
        some (.ok, bytesOf 1 c.val ++ bytesOf 3 x.serial ++ bytesOf 1 x.state.code ++ [byte] ++
          bytesOf 2 (s.directory.countP fun r =>
            r.parts.any (fun p => p.ctx == c) && r.parts.all fun p => p.ctx == c) ++
          bytesOf 2 (s.directory.countP fun r =>
            r.parts.any (fun p => p.ctx == c) && r.parts.any fun p => p.ctx != c) ++
          bytesOf 2 x.buffers.length)) := by
  obtain ⟨serial, hof, hdiffers⟩ := optionalSerialOf_eq_some hserial
  obtain ⟨byte, hbyte, hcount⟩ := countByte_eq s (s.partsOn c)
  refine ⟨byte, hbyte, ?_⟩
  have hstate : x.state ≠ .composing := by
    rcases h with h | h <;> simp [h]
  have hbusy : ¬(x.state = .closing ∨ x.state = .queued ∨ x.state = .exposing) := by
    rcases h with h | h <;> simp [h]
  simp only [release, ctxOf_eq_some_iff.2 hc, hof, hx, hdiffers, sum_countP_filter_onContext,
    countP_releaseFrom, length_onContext_sub]
  rw [if_neg (not_or.2 ⟨hstate, by omega⟩), if_neg hbusy, show (s.directory.map _).sum = s.partsOn c from rfl, hcount]
  rfl

end

/-- Settles O30: each refusal in its order, and the context freed. -/
theorem releaseFreesContextAndParts : Obligations.ReleaseFreesContextAndParts := by
  intro s f rest hx
  refine ⟨fun h => execute_answered hx (release_malformed h), fun c hc hserial => ⟨fun h =>
    execute_answered hx (release_free hc hserial h), fun x hfiche => ⟨fun h =>
      execute_answered hx (release_state hc hserial hfiche h), fun hmatch => ⟨fun h =>
        execute_answered hx (release_busy hc hserial hfiche hmatch h), fun h => ?_⟩⟩⟩⟩
  obtain ⟨byte, hbyte, hfreed⟩ := release_freed hc hserial hfiche hmatch h
  refine ⟨byte, hbyte, ?_⟩
  rw [releaseRecords_eq] at hfreed
  exact execute_answered hx hfreed

end Sys2Proof.Machine
end

section
/-! SUPPORT. AMEND (R33 to R35): its operands, its refusals in their order, and what it leaves when it is performed. -/
namespace Sys2Proof.Machine

/-! ## Operands -/

/-- The new key that an AMEND carries (R33). -/
def newKeyOf (body : List Byte) : Option Key := if (field body 6 1).testBit 0 then some (fieldKey body 7) else none

/-- The new page count that an AMEND carries (R33). -/
def newCountOf (body : List Byte) : Option Nat := if (field body 6 1).testBit 1 then some (field body 13 1) else none

/-- The operands of an AMEND that is not MALFORMED (R33). -/
structure AmendFormed (body : List Byte) : Prop where
  changes : field body 6 1 ≠ 0
  changes_le : field body 6 1 ≤ 3
  count : ∀ m, newCountOf body = some m → 1 ≤ m ∧ m ≤ 64
  tests : field body 16 1 ≤ 7

/-- The record that an AMEND names is held, wholly on COMPOSING contexts, and its revision meets the condition. -/
structure AmendMeets (s : State) (f : Frame) (r : Record) : Prop where
  formed : AmendFormed f.body
  record : s.record (fieldKey f.body 0) = some r
  composing : s.allComposing r = true
  condition : conditionHolds r.revision (BitVec.ofNat 16 (field f.body 14 2)) (field f.body 16 1) = true

/-- An AMEND that passes every check of R33 but the last, whether there is room. -/
structure AmendPasses (s : State) (f : Frame) (r : Record) : Prop extends AmendMeets s f r where
  fresh : ∀ k, newKeyOf f.body = some k → k = r.key ∨ s.record k = none
  whole : ∀ m, newCountOf f.body = some m → m ≠ r.pageCount → r.isSplit = false

theorem newKeyOf_eq_some {body : List Byte} (h : (field body 6 1).testBit 0 = true) :
    newKeyOf body = some (fieldKey body 7) := if_pos h

theorem newCountOf_eq_some {body : List Byte} (h : (field body 6 1).testBit 1 = true) :
    newCountOf body = some (field body 13 1) := if_pos h

/-- The change sets: a new key alone, a page count alone, both. -/
theorem newKeyOf_of_changes {body : List Byte} (h : field body 6 1 = 1 ∨ field body 6 1 = 3) :
    newKeyOf body = some (fieldKey body 7) := by
  rcases h with h | h <;> simp [newKeyOf, h, Nat.testBit]

theorem newKeyOf_of_count {body : List Byte} (h : field body 6 1 = 2) : newKeyOf body = none := by
  simp [newKeyOf, h, Nat.testBit]

theorem newCountOf_of_changes {body : List Byte} (h : field body 6 1 = 2 ∨ field body 6 1 = 3) :
    newCountOf body = some (field body 13 1) := by
  rcases h with h | h <;> simp [newCountOf, h, Nat.testBit]

theorem newCountOf_of_key {body : List Byte} (h : field body 6 1 = 1) : newCountOf body = none := by
  simp [newCountOf, h, Nat.testBit]

/-! ## Refusals -/

section
variable {f : Frame} {s : State} {r : Record}

theorem amend_malformed (h : field f.body 6 1 = 0 ∨ 3 < field f.body 6 1 ∨
    ((field f.body 6 1).testBit 1 = true ∧ (field f.body 13 1 = 0 ∨ 64 < field f.body 13 1)) ∨ 7 < field f.body 16 1) :
    amend f s = s.refuse .malformed := by
  unfold amend
  extract_lets key changes newKey count expected tests
  refine if_pos ?_
  rcases h with h | h | ⟨hcount, h⟩ | h
  · exact .inl h
  · exact .inr (.inl h)
  · have : count = some (field f.body 13 1) := newCountOf_eq_some hcount
    simp [this, h]
  · simp [tests, testSetValid, h]

/-- What an AMEND of `key` leaves and answers when it is performed, from the state and the record to which its page count is
applied: the new key, and one revision more (R34, R35). -/
def amendDone (newKey : Option Key) (key : Key) (u : State × Record) : State × Answer :=
  (((if newKey.isSome then u.1.rekey u.2 (newKey.getD key) else u.1).updateRecord (newKey.getD key) fun q =>
      { q with revision := q.revision + 1 }).stallTest,
    some (.ok, bytesOf 6 (newKey.getD key).toNat ++ bytesOf 1 u.2.pageCount ++ bytesOf 2 (u.2.revision + 1).toNat ++
      bytesOf 2 ((u.2.parts.head?.map (·.firstCell)).getD 0)))

/-- An AMEND that is not MALFORMED goes on to its record. -/
theorem amend_of_formed (h : AmendFormed f.body) : amend f s =
    ((s.record (fieldKey f.body 0)).map fun r =>
      if !s.allComposing r then s.refuse .frozen
      else if !conditionHolds r.revision (BitVec.ofNat 16 (field f.body 14 2)) (field f.body 16 1) then s.refuseCondition r
      else if (newKeyOf f.body).any (fun k => k != fieldKey f.body 0 && (s.record k).isSome) then s.refuse .duplicate
      else if (newCountOf f.body).any (fun m => m != r.pageCount) && r.isSplit then s.refuse .splitFixed
      else ((s.applyPageCount r (newCountOf f.body)).map
        (amendDone (newKeyOf f.body) (fieldKey f.body 0))).getD (s.refuse .noRoom)).getD (s.refuse .notFound) := by
  have hformed : ¬(field f.body 6 1 = 0 ∨ 3 < field f.body 6 1 ∨
      (newCountOf f.body).any (fun m => decide (m = 0 ∨ 64 < m)) = true ∨ (!testSetValid (field f.body 16 1)) = true) := by
    obtain ⟨hne, hle, hcount, htests⟩ := h
    have hany : (newCountOf f.body).any (fun m => decide (m = 0 ∨ 64 < m)) = false := by
      cases hc : newCountOf f.body with
      | none => rfl
      | some m =>
        have := hcount m hc
        simp
        omega
    simp only [hany, testSetValid, htests, hne, decide_true, Bool.not_true, Bool.false_eq_true, or_false, false_or]
    omega
  unfold amend
  extract_lets key changes newKey count expected tests
  refine (if_neg hformed).trans ?_
  cases hr : s.record key with
  | none => rfl
  | some r =>
    simp only [Option.map_some, Option.getD_some]
    rw [show newCountOf f.body = count from rfl]
    cases ha : s.applyPageCount r count <;> rfl

theorem amend_notFound (h : AmendFormed f.body) (hr : s.record (fieldKey f.body 0) = none) :
    amend f s = s.refuse .notFound := by
  rw [amend_of_formed h, hr]
  rfl

theorem amend_frozen (h : AmendFormed f.body) (hr : s.record (fieldKey f.body 0) = some r)
    (hc : s.allComposing r = false) : amend f s = s.refuse .frozen := by
  rw [amend_of_formed h, hr]
  simp [hc]

theorem amend_condition (h : AmendFormed f.body) (hr : s.record (fieldKey f.body 0) = some r)
    (hc : s.allComposing r = true)
    (ht : conditionHolds r.revision (BitVec.ofNat 16 (field f.body 14 2)) (field f.body 16 1) = false) :
    amend f s = s.refuseCondition r := by
  rw [amend_of_formed h, hr]
  simp [hc, ht]

theorem amend_duplicate (h : AmendMeets s f r) {k : Key} (hk : newKeyOf f.body = some k) (hne : k ≠ fieldKey f.body 0)
    (hheld : s.record k ≠ none) : amend f s = s.refuse .duplicate := by
  rw [amend_of_formed h.formed, h.record]
  simp [h.composing, h.condition, hk, hne, Option.isSome_iff_ne_none.2 hheld]

/-- A new key that no other record has does not stop an AMEND. -/
theorem amend_fresh (h : AmendMeets s f r) (hfresh : ∀ k, newKeyOf f.body = some k → k = r.key ∨ s.record k = none) :
    (newKeyOf f.body).any (fun k => k != fieldKey f.body 0 && (s.record k).isSome) = false := by
  rw [(mem_of_record h.record).2.symm]
  cases hk : newKeyOf f.body with
  | none => rfl
  | some k => rcases hfresh k hk with hkey | hnone <;> simp [*]

theorem amend_splitFixed (h : AmendMeets s f r)
    (hfresh : ∀ k, newKeyOf f.body = some k → k = r.key ∨ s.record k = none) {m : Nat} (hm : newCountOf f.body = some m)
    (hne : m ≠ r.pageCount) (hsplit : r.isSplit = true) : amend f s = s.refuse .splitFixed := by
  rw [amend_of_formed h.formed, h.record]
  simp [h.composing, h.condition, amend_fresh h hfresh, hm, hne, hsplit]

/-- An AMEND that passes answers by whether its page count finds room. -/
theorem amend_of_passes (h : AmendPasses s f r) : amend f s =
    ((s.applyPageCount r (newCountOf f.body)).map (amendDone (newKeyOf f.body) r.key)).getD (s.refuse .noRoom) := by
  have hwhole : ((newCountOf f.body).any (fun m => m != r.pageCount) && r.isSplit) = false := by
    cases hm : newCountOf f.body with
    | none => rfl
    | some m =>
      by_cases hne : m = r.pageCount
      · simp [hne]
      · simp [h.whole m hm hne]
  rw [amend_of_formed h.formed, h.record, (mem_of_record h.record).2]
  simp only [Option.map_some, Option.getD_some, h.composing, h.condition, amend_fresh h.toAmendMeets h.fresh, hwhole,
    Bool.not_true, Bool.false_eq_true, if_false]

end

/-! ## The page count -/

theorem firstFit_eq_none {cells : List Cell} {usable length s : Nat}
    (h : ∀ g, g % s = 0 → runIsFree cells usable g length = false) : firstFit cells usable length s = none := by
  refine List.find?_eq_none.2 fun g _ hg => ?_
  rw [Bool.and_eq_true, beq_iff_eq] at hg
  rw [h g hg.1] at hg
  simp at hg

/-- The lowest multiple of s that begins a free run (R52). -/
theorem firstFit_eq_some {cells : List Cell} {usable length s g : Nat} (hlength : 0 < length) (hs : g % s = 0)
    (hg : runIsFree cells usable g length = true)
    (hlowest : ∀ h < g, h % s = 0 → runIsFree cells usable h length = false) :
    firstFit cells usable length s = some g := by
  have hend : g + length ≤ usable := by
    simp only [runIsFree, Bool.and_eq_true, decide_eq_true_eq] at hg
    exact hg.1
  refine List.find?_range_eq_some.2 ⟨by simp [hs, hg], List.mem_range.2 (by omega), fun h hh => ?_⟩
  by_cases hmod : h % s = 0
  · simp [hlowest h hh hmod]
  · simp [hmod]

section
variable {x : Fiche} {r : Record} {p : RecordPart} {m : Nat}

theorem resize_shrink (h : m ≤ r.pageCount) : resize x r p m =
    some (freeRun x.cells (p.firstCell + m * r.span.cells) ((r.pageCount - m) * r.span.cells), p.firstCell) := if_pos h

theorem resize_grow (h : r.pageCount < m) (hfree : runIsFree x.cells (usableCells x.format x.k)
    (p.firstCell + r.pageCount * r.span.cells) ((m - r.pageCount) * r.span.cells) = true) : resize x r p m =
    some (occupyRun x.cells r.key r.span (p.firstCell + r.pageCount * r.span.cells) (r.pageCount + 1) (m - r.pageCount),
      p.firstCell) := by
  unfold resize
  dsimp only
  rw [if_neg (by omega), if_pos hfree]

/-- The cell map after a record of n pages at `first` has moved to cell g with m pages (R64). -/
def movedCells (x : Fiche) (r : Record) (first g m : Nat) : List Cell :=
  mapCells (fun i e => if g ≤ i ∧ i < g + r.pageCount * r.span.cells then
      ((x.cells.drop first).take (r.pageCount * r.span.cells)).getD (i - g) e else e)
    (occupyRun (freeRun x.cells first (r.pageCount * r.span.cells)) r.key r.span (g + r.pageCount * r.span.cells)
      (r.pageCount + 1) (m - r.pageCount))

/-- A record that cannot grow in place moves to the run first fit finds with its own cells FREE (R64). -/
theorem resize_move (h : r.pageCount < m) (hfull : runIsFree x.cells (usableCells x.format x.k)
    (p.firstCell + r.pageCount * r.span.cells) ((m - r.pageCount) * r.span.cells) = false) : resize x r p m =
    (firstFit (freeRun x.cells p.firstCell (r.pageCount * r.span.cells)) (usableCells x.format x.k) (m * r.span.cells)
      r.span.cells).map fun g => (movedCells x r p.firstCell g m, g) := by
  unfold resize
  dsimp only
  rw [if_neg (by omega), if_neg (by simp [hfull])]
  rfl

end

theorem applyPageCount_same {s : State} {r : Record} {count : Option Nat} (h : ∀ m, count = some m → m = r.pageCount) :
    s.applyPageCount r count = some (s, r) := by
  unfold State.applyPageCount
  split
  next m _ _ _ => rw [if_pos (h m rfl)]
  next => rfl

/-- The record whose one part p has m pages from a first cell on (R61). -/
def Record.resized (r : Record) (p : RecordPart) (m first : Nat) : Record :=
  { r with pageCount := m, parts := [{ p with firstCell := first, pages := m }] }

theorem applyPageCount_other {s : State} {r : Record} {p : RecordPart} {x : Fiche} {m : Nat} (hp : r.parts = [p])
    (hx : s.fiche p.ctx = some x) (hm : m ≠ r.pageCount) :
    s.applyPageCount r (some m) = (resize x r p m).map fun u =>
      ((s.setContext p.ctx (some { x with cells := u.1 })).updateRecord r.key fun _ => r.resized p m u.2,
        r.resized p m u.2) := by
  simp only [State.applyPageCount, hp, hm, hx, if_false, Option.bind_some]
  rfl

/-- Settles O14: each refusal under the negation of those before it. -/
theorem amendRefusalsInOrder : Obligations.AmendRefusalsInOrder := by
  intro s f rest hx
  refine ⟨fun h => execute_answered hx (amend_malformed h), fun hne hle hcount htests => ?_⟩
  have hformed : AmendFormed f.body := by
    refine ⟨hne, hle, fun m hm => ?_, htests⟩
    unfold newCountOf at hm
    split at hm
    next hbit =>
      cases hm
      exact hcount hbit
    next => cases hm
  refine ⟨fun hr => execute_answered hx (amend_notFound hformed hr), fun r hr => ⟨fun hc =>
    execute_answered hx (amend_frozen hformed hr hc), fun hc => ⟨fun ht =>
      execute_answered hx (amend_condition hformed hr hc ht), fun ht => ?_⟩⟩⟩
  have hmeets : AmendMeets s f r := ⟨hformed, hr, hc, ht⟩
  refine ⟨fun ⟨hbit, hother, hheld⟩ => execute_answered hx (amend_duplicate hmeets (newKeyOf_eq_some hbit) hother hheld),
    fun hfresh hbit hm => ?_⟩
  have hfresh' : ∀ k, newKeyOf f.body = some k → k = r.key ∨ s.record k = none := by
    intro k hk
    unfold newKeyOf at hk
    split at hk
    next hbit =>
      cases hk
      rw [(mem_of_record hr).2]
      exact hfresh hbit
    next => cases hk
  refine ⟨fun hsplit => execute_answered hx (amend_splitFixed hmeets hfresh' (newCountOf_eq_some hbit) hm hsplit),
    fun p x hwhole hp hfiche hgrows hfull hnone => execute_answered hx ?_⟩
  have hpasses : AmendPasses s f r := ⟨hmeets, hfresh', fun _ _ _ => hwhole⟩
  rw [amend_of_passes hpasses, newCountOf_eq_some hbit, applyPageCount_other hp hfiche hm, resize_move hgrows hfull,
    firstFit_eq_none hnone]
  rfl

end Sys2Proof.Machine
end

section
/-! SUPPORT. AMEND performed: a record under a new key (R34, R61), resized where it lies (R62, R63), or moved (R64). -/
namespace Sys2Proof.Machine

/-! ## Cells renamed, freed and occupied -/

theorem freeRun_getElem? (cells : List Cell) (first length i : Nat) : (freeRun cells first length)[i]? =
    cells[i]?.map fun e => if first ≤ i ∧ i < first + length then .free else e := mapCells_getElem? _ cells i

theorem occupyRun_getElem? (cells : List Cell) (key : Key) (span : Span) (first q pages i : Nat) :
    (occupyRun cells key span first q pages)[i]? = cells[i]?.map fun e =>
      if first ≤ i ∧ i < first + pages * span.cells then .occupied (newEntry key span q (i - first)) else e :=
  mapCells_getElem? _ cells i

@[simp] theorem freeRun_length (cells : List Cell) (first length : Nat) : (freeRun cells first length).length =
    cells.length := mapCells_length _ cells

@[simp] theorem occupyRun_length (cells : List Cell) (key : Key) (span : Span) (first q pages : Nat) :
    (occupyRun cells key span first q pages).length = cells.length := mapCells_length _ cells

/-- A cell whose entry takes the new key of its record (R34). -/
def rekeyCell (old new : Key) (e : Cell) : Cell := e.modify fun o => if o.key = old then { o with key := new } else o

@[simp] theorem rekeyCells_length (old new : Key) (cells : List Cell) : (rekeyCells old new cells).length = cells.length :=
  List.length_map _

theorem rekeyCells_getElem? (old new : Key) (cells : List Cell) (i : Nat) :
    (rekeyCells old new cells)[i]? = cells[i]?.map (rekeyCell old new) := List.getElem?_map

theorem rekeyCell_self (key : Key) (e : Cell) : rekeyCell key key e = e := by
  cases e with
  | occupied o =>
    simp only [rekeyCell, Cell.modify]
    split
    next h => rw [← h]
    next => rfl
  | free | index => rfl

theorem rekeyCell_rekeyCell (old new : Key) (e : Cell) : rekeyCell old new (rekeyCell old new e) = rekeyCell old new e := by
  cases e with
  | occupied o =>
    by_cases h : o.key = old <;> by_cases h' : new = old <;> simp [rekeyCell, Cell.modify, h, h']
  | free | index => rfl

theorem rekeyCells_self (key : Key) (cells : List Cell) : rekeyCells key key cells = cells :=
  (List.map_congr_left fun e _ => rekeyCell_self key e).trans (List.map_id' cells)

theorem rekeyCells_rekeyCells (old new : Key) (cells : List Cell) :
    rekeyCells old new (rekeyCells old new cells) = rekeyCells old new cells := by
  refine List.ext_getElem? fun i => ?_
  simp only [rekeyCells_getElem?, Option.map_map, Function.comp_def, rekeyCell_rekeyCell]

/-- A new entry under the new key (R43, R53). -/
theorem rekeyCell_newEntry (old new : Key) (span : Span) (q i : Nat) :
    rekeyCell old new (.occupied (newEntry old span q i)) = .occupied
      { key := new, page := q + i / span.cells
        half := match span with
          | .single => .whole
          | .wide => if i % 2 = 0 then .left else .right
        image := .awaiting, buffer := none, cropped := false, saturated := false } := by
  cases span <;> simp [rekeyCell, Cell.modify, newEntry]

/-! ## A record under a new key -/

/-- The fiche of a record that takes a new key (R34). -/
def Fiche.rekey (old new : Key) (x : Fiche) : Fiche := { x with cells := rekeyCells old new x.cells }

theorem rekey_eq (s : State) (r : Record) (new : Key) : s.rekey r new =
    { s.modifyParts r.parts (fun _ => Fiche.rekey r.key new) with
      directory := insertRecord { r with key := new } (s.directory.filter fun q => q.key != r.key) } := by
  have hdirectory := modifyParts_directory s r.parts fun _ => Fiche.rekey r.key new
  rw [← hdirectory]
  rfl

theorem fiche_rekey (s : State) (r : Record) (new : Key) (c : CtxId) : (s.rekey r new).fiche c =
    (s.fiche c).map fun x => if ∃ p ∈ r.parts, p.ctx = c then x.rekey r.key new else x := by
  have hfold : ∀ (ps : List RecordPart) (x : Fiche), ps ≠ [] →
      ps.foldl (fun x _ => x.rekey r.key new) x = x.rekey r.key new := by
    intro ps
    induction ps with
    | nil => exact fun _ h => absurd rfl h
    | cons p ps ih =>
      intro x _
      cases ps with
      | nil => rfl
      | cons q ps =>
        rw [List.foldl_cons, ih _ (by simp)]
        simp only [Fiche.rekey, rekeyCells_rekeyCells]
  rw [rekey_eq]
  refine (fiche_modifyParts r.parts (fun _ => Fiche.rekey r.key new) c s).trans (Option.map_congr fun x _ => ?_)
  split
  next h =>
    obtain ⟨p, hp, hc⟩ := h
    exact hfold _ x (List.ne_nil_of_mem (List.mem_filter.2 ⟨hp, by simpa using hc⟩))
  next h =>
    have hnone : r.parts.filter (fun p => p.ctx == c) = [] :=
      List.filter_eq_nil_iff.2 fun p hp hc => h ⟨p, hp, by simpa using hc⟩
    rw [hnone, List.foldl_nil]

theorem record_fresh {s : State} {r : Record} {new : Key} (h : new = r.key ∨ s.record new = none) :
    ∀ q ∈ s.directory.filter (fun q => q.key != r.key), q.key ≠ new := by
  intro q hq
  obtain ⟨hmem, hkey⟩ := List.mem_filter.1 hq
  rcases h with rfl | h
  · simpa using hkey
  · exact record_eq_none_iff.1 h q hmem

/-- Settles O15: the record put under its new key with one revision more, and its cells renamed context by context. -/
theorem amendRekeysRecord : Obligations.AmendRekeysRecord := by
  intro s f rest r hx hchanges htests hr hc ht hfresh
  have hkey : newKeyOf f.body = some (fieldKey f.body 7) := newKeyOf_of_changes (hchanges.imp_right fun h => h.1)
  have hcount : ∀ m, newCountOf f.body = some m → m = r.pageCount ∧ 1 ≤ m ∧ m ≤ 64 := by
    intro m hm
    rcases hchanges with h | ⟨h, hsame, hlow, hhigh⟩
    · rw [newCountOf_of_key h] at hm
      cases hm
    · rw [newCountOf_of_changes (.inr h)] at hm
      cases hm
      rw [hsame]
      exact ⟨rfl, hlow, hhigh⟩
  have hpasses : AmendPasses s f r :=
    { formed := ⟨by omega, by omega, fun m hm => (hcount m hm).2, htests⟩
      record := hr, composing := hc, condition := ht
      fresh := fun k hk => by
        rw [hkey] at hk
        cases hk
        exact hfresh
      whole := fun m hm hne => absurd (hcount m hm).1 hne }
  have hamend := amend_of_passes hpasses
  rw [applyPageCount_same fun m hm => (hcount m hm).1, hkey] at hamend
  refine ⟨_, execute_answered hx hamend, ?_, fun c => (fiche_rekey s r (fieldKey f.body 7) c)⟩
  have hinsert := map_insertRecord (r := { r with key := fieldKey f.body 7 }) (fun q => { q with revision := q.revision + 1 })
    rfl (record_fresh hfresh)
  simp only [Option.isSome_some, if_true, Option.getD_some, State.updateRecord, rekey_eq, hinsert]
  rw [modifyParts_frame]

end Sys2Proof.Machine
end

section
/-! SUPPORT. AMEND with a page count: the record resized where it lies (R62, R63) or moved (R64). -/
namespace Sys2Proof.Machine

/-! ## The state after a resize -/

theorem rekey_onePart {t : State} {r : Record} {p : RecordPart} {x : Fiche} (hp : r.parts = [p])
    (hx : t.fiche p.ctx = some x) (new : Key) : t.rekey r new =
    { t.setContext p.ctx (some (x.rekey r.key new)) with
      directory := insertRecord { r with key := new } (t.directory.filter fun q => q.key != r.key) } := by
  rw [rekey_eq, hp]
  simp only [State.modifyParts, List.foldl_cons, List.foldl_nil, modifyFiche_of_fiche hx]

/-- The record of a key replaced, and its revision raised. -/
theorem map_update_update {key : Key} {r : Record} (rs : List Record) (h : r.key = key) :
    (rs.map fun q => if q.key = key then r else q).map
        (fun q => if q.key = key then { q with revision := q.revision + 1 } else q) =
      rs.map fun q => if q.key = key then { r with revision := r.revision + 1 } else q := by
  rw [List.map_map]
  refine List.map_congr_left fun q _ => ?_
  by_cases hq : q.key = key <;> simp [hq, h]

/-- Replacing the record of a key leaves the others. -/
theorem filter_update {key : Key} {r : Record} (rs : List Record) (h : r.key = key) :
    (rs.map fun q => if q.key = key then r else q).filter (fun q => q.key != key) = rs.filter fun q => q.key != key := by
  induction rs with
  | nil => rfl
  | cons q rs ih => by_cases hq : q.key = key <;> simp [hq, h, ih]

theorem setContext_updateRecord (s : State) (c : CtxId) (x y : Option Fiche) (key : Key) (g : Record → Record) :
    ((s.setContext c x).updateRecord key g).setContext c y = (s.setContext c y).updateRecord key g := by
  simp [State.setContext, State.updateRecord]

/-- A record replaced on its one part's context, then put under a new key with one revision more. -/
theorem rekey_replaced {s : State} {r r' : Record} {p : RecordPart} {x : Fiche} {new : Key} (hkey : r'.key = r.key)
    (hp : r'.parts = [p]) (hfresh : new = r.key ∨ s.record new = none) :
    (((s.setContext p.ctx (some x)).updateRecord r.key fun _ => r').rekey r' new).updateRecord new
        (fun q => { q with revision := q.revision + 1 }) =
      { s.setContext p.ctx (some (x.rekey r.key new)) with
        directory := insertRecord { r' with key := new, revision := r'.revision + 1 }
          (s.directory.filter fun q => q.key != r.key) } := by
  have hinsert := map_insertRecord (fun q => { q with revision := q.revision + 1 }) (r := { r' with key := new }) rfl
    (record_fresh hfresh)
  have hfiche : ((s.setContext p.ctx (some x)).updateRecord r.key fun _ => r').fiche p.ctx = some x :=
    State.fiche_setContext_self ..
  rw [rekey_onePart hp hfiche, setContext_updateRecord, hkey]
  simp only [State.updateRecord, State.setContext_directory, filter_update s.directory hkey, hinsert]

/-- An AMEND that passes and carries another page count for a record whose one part p lies on the fiche x, with the record's
key or a new one. -/
structure AmendResizes (s : State) (f : Frame) (r : Record) (p : RecordPart) (x : Fiche) (new : Key) : Prop
    extends AmendPasses s f r where
  changes : (field f.body 6 1 = 2 ∧ new = r.key) ∨
    (field f.body 6 1 = 3 ∧ new = fieldKey f.body 7 ∧ (new = r.key ∨ s.record new = none))
  parts : r.parts = [p]
  fiche : s.fiche p.ctx = some x
  differs : field f.body 13 1 ≠ r.pageCount

section
variable {s : State} {f : Frame} {r : Record} {p : RecordPart} {x : Fiche} {new : Key}

theorem amendResizes (hchanges : (field f.body 6 1 = 2 ∧ new = r.key) ∨
      (field f.body 6 1 = 3 ∧ new = fieldKey f.body 7 ∧ (new = r.key ∨ s.record new = none)))
    (hlow : 1 ≤ field f.body 13 1) (hhigh : field f.body 13 1 ≤ 64) (htests : field f.body 16 1 ≤ 7)
    (hr : s.record (fieldKey f.body 0) = some r) (hc : s.allComposing r = true)
    (ht : conditionHolds r.revision (BitVec.ofNat 16 (field f.body 14 2)) (field f.body 16 1) = true)
    (hwhole : r.isSplit = false) (hp : r.parts = [p]) (hx : s.fiche p.ctx = some x)
    (hdiffers : field f.body 13 1 ≠ r.pageCount) : AmendResizes s f r p x new where
  formed := by
    refine ⟨by omega, by omega, fun m hm => ?_, htests⟩
    rw [newCountOf_of_changes (hchanges.imp And.left And.left)] at hm
    cases hm
    exact ⟨hlow, hhigh⟩
  record := hr
  composing := hc
  condition := ht
  fresh k hk := by
    rcases hchanges with ⟨h, -⟩ | ⟨h, rfl, hfresh⟩
    · rw [newKeyOf_of_count h] at hk
      cases hk
    · rw [newKeyOf_of_changes (.inr h)] at hk
      cases hk
      exact hfresh
  whole _ _ _ := hwhole
  changes := hchanges
  parts := hp
  fiche := hx
  differs := hdiffers

/-- The context takes the resized cell map under the record's key, the record its count, its key and one revision more. -/
theorem amend_resized (h : AmendResizes s f r p x new) {resized : List Cell} {first : Nat} {amended : Record}
    (hresize : resize x r p (field f.body 13 1) = some (resized, first))
    (hamended : amended = { r with
      key := new, pageCount := field f.body 13 1, revision := r.revision + 1
      parts := [{ p with firstCell := first, pages := field f.body 13 1 }] }) :
    amend f s = (({ s.setContext p.ctx (some { x with cells := rekeyCells r.key new resized }) with
        directory := if field f.body 6 1 = 2 then s.directory.map fun q => if q.key = r.key then amended else q
          else insertRecord amended (s.directory.filter fun q => q.key != r.key) } : State).stallTest,
      some (.ok, bytesOf 6 new.toNat ++ bytesOf 1 (field f.body 13 1) ++ bytesOf 2 (r.revision + 1).toNat ++
        bytesOf 2 first)) := by
  subst hamended
  have hcount := newCountOf_of_changes (h.changes.imp And.left And.left)
  rw [amend_of_passes h.toAmendPasses, hcount, applyPageCount_other h.parts h.fiche h.differs, hresize]
  rcases h.changes with ⟨hchanges, rfl⟩ | ⟨hchanges, rfl, hfresh⟩
  · have hupdate := map_update_update s.directory (key := r.key) (r := r.resized p (field f.body 13 1) first) rfl
    rw [newKeyOf_of_count hchanges, if_pos hchanges, rekeyCells_self]
    simp only [Option.map_some, Option.getD_some, amendDone, Option.isSome_none, Bool.false_eq_true, if_false,
      Option.getD_none, State.updateRecord, State.setContext_directory, hupdate]
    rfl
  · have hrekey := rekey_replaced (s := s) (r := r) (r' := r.resized p (field f.body 13 1) first)
      (x := { x with cells := resized }) rfl rfl hfresh
    rw [newKeyOf_of_changes (.inr hchanges), if_neg (by omega)]
    exact congrArg (fun t : State => (t.stallTest, _)) hrekey

end

/-! ## The cells of a resized record -/

section
variable {x : Fiche} {r : Record} {p : RecordPart} {m : Nat}

/-- The cells of the pages past the new count become FREE (R62). -/
theorem shrunk_getElem? (h : m ≤ r.pageCount) (first i : Nat) :
    (freeRun x.cells (first + m * r.span.cells) ((r.pageCount - m) * r.span.cells))[i]? = x.cells[i]?.map fun e =>
      if first + m * r.span.cells ≤ i ∧ i < first + r.pageCount * r.span.cells then .free else e := by
  have hend : first + m * r.span.cells + (r.pageCount - m) * r.span.cells = first + r.pageCount * r.span.cells := by
    rw [Nat.add_assoc, ← Nat.add_mul, Nat.add_sub_cancel' h]
  rw [freeRun_getElem?, hend]

/-- The cells of the new pages become OCCUPIED (R63). -/
theorem grown_getElem? (h : r.pageCount ≤ m) (cells : List Cell) (first i : Nat) :
    (occupyRun cells r.key r.span (first + r.pageCount * r.span.cells) (r.pageCount + 1) (m - r.pageCount))[i]? =
      cells[i]?.map fun e =>
        if first + r.pageCount * r.span.cells ≤ i ∧ i < first + m * r.span.cells then
          .occupied (newEntry r.key r.span (r.pageCount + 1) (i - (first + r.pageCount * r.span.cells))) else e := by
  have hend : first + r.pageCount * r.span.cells + (m - r.pageCount) * r.span.cells = first + m * r.span.cells := by
    rw [Nat.add_assoc, ← Nat.add_mul, Nat.add_sub_cancel' h]
  rw [occupyRun_getElem?, hend]

theorem movedCells_length (first g : Nat) : (movedCells x r first g m).length = x.cells.length := by
  simp [movedCells]

/-- The moved record's own pages: each cell with what it held (R64, R100). -/
theorem movedCells_own {first g j : Nat} (hj : j < r.pageCount * r.span.cells) (hg : g + j < x.cells.length)
    (hrun : first + r.pageCount * r.span.cells ≤ x.cells.length) :
    (movedCells x r first g m)[g + j]? = x.cells[first + j]? := by
  have hlast : first + j < x.cells.length := by omega
  have hold : ((x.cells.drop first).take (r.pageCount * r.span.cells))[j]? = some x.cells[first + j] := by
    rw [List.getElem?_take, if_pos hj, List.getElem?_drop, List.getElem?_eq_getElem hlast]
  obtain ⟨e, he⟩ : ∃ e, (occupyRun (freeRun x.cells first (r.pageCount * r.span.cells)) r.key r.span
      (g + r.pageCount * r.span.cells) (r.pageCount + 1) (m - r.pageCount))[g + j]? = some e :=
    ⟨_, List.getElem?_eq_getElem (by simpa using hg)⟩
  rw [movedCells, mapCells_getElem?, he, Option.map_some, if_pos (by omega), Nat.add_sub_cancel_left,
    List.getD_eq_getElem?_getD, hold, Option.getD_some, List.getElem?_eq_getElem hlast]

/-- Every other cell: the new pages are OCCUPIED, the rest of the old run is FREE (R64). -/
theorem movedCells_other (h : r.pageCount ≤ m) {first g i : Nat} (hi : ¬(g ≤ i ∧ i < g + r.pageCount * r.span.cells)) :
    (movedCells x r first g m)[i]? = x.cells[i]?.map fun e =>
      if g + r.pageCount * r.span.cells ≤ i ∧ i < g + m * r.span.cells then
        .occupied (newEntry r.key r.span (r.pageCount + 1) (i - (g + r.pageCount * r.span.cells)))
      else if first ≤ i ∧ i < first + r.pageCount * r.span.cells then .free else e := by
  rw [movedCells, mapCells_getElem?, grown_getElem? h, freeRun_getElem?]
  simp only [hi, if_false, Option.map_map, Function.comp_def]

end

/-- Settles O16: the record's count applied where it lies, cell by cell, under its key or a new one. -/
theorem amendResizesInPlace : Obligations.AmendResizesInPlace := by
  constructor
  · intro s f rest r hx hchanges hsame hlow hhigh htests hr hc ht
    have hcount : newCountOf f.body = some r.pageCount := by rw [newCountOf_of_changes (.inl hchanges), hsame]
    have hpasses : AmendPasses s f r :=
      { formed := ⟨by omega, by omega, by simp [hcount, hlow, hhigh], htests⟩
        record := hr, composing := hc, condition := ht
        fresh := by simp [newKeyOf_of_count hchanges]
        whole := by simp [hcount] }
    have hamend := amend_of_passes hpasses
    rw [hcount, applyPageCount_same (by simp), newKeyOf_of_count hchanges] at hamend
    exact execute_answered hx hamend
  · intro s f rest r p x new hx hchanges hlow hhigh htests hr hc ht hwhole hp hfiche hm hfree amended hamended
    have hresizes := amendResizes hchanges hlow hhigh htests hr hc ht hwhole hp hfiche hm
    rcases Nat.lt_or_gt_of_ne hm with hshrinks | hgrows
    · refine ⟨_, execute_answered hx (amend_resized hresizes (resize_shrink hshrinks.le) hamended), by simp,
        fun i e he => ?_⟩
      have hpages := Nat.mul_le_mul_right r.span.cells hshrinks.le
      rw [rekeyCells_getElem?, shrunk_getElem? hshrinks.le, he, Option.map_some, Option.map_some]
      split
      next => rfl
      next =>
        rw [if_neg (by omega)]
        rfl
    · refine ⟨_, execute_answered hx (amend_resized hresizes (resize_grow hgrows (hfree hgrows)) hamended), by simp,
        fun i e he => ?_⟩
      have hpages := Nat.mul_le_mul_right r.span.cells hgrows.le
      have hkept : ¬(p.firstCell + field f.body 13 1 * r.span.cells ≤ i ∧
        i < p.firstCell + r.pageCount * r.span.cells) := by omega
      rw [rekeyCells_getElem?, grown_getElem? hgrows.le, he, Option.map_some, Option.map_some, if_neg hkept]
      split
      next => exact congrArg some (rekeyCell_newEntry ..)
      next => rfl

/-- Settles O17: the run first fit finds, and the cells of the record's own pages, its new pages and the others. -/
theorem amendMovesGrownRecord : Obligations.AmendMovesGrownRecord := by
  intro s f rest r p x g new hx hchanges hlow hhigh htests hr hc ht hwhole hp hfiche hgrows hfull hmod hrun hlowest hlen
    amended renamed hamended hrenamed
  have hresizes := amendResizes hchanges hlow hhigh htests hr hc ht hwhole hp hfiche hgrows.ne'
  have hlength : 0 < field f.body 13 1 * r.span.cells := by
    refine Nat.mul_pos hlow ?_
    cases r.span <;> decide
  have hresize : resize x r p (field f.body 13 1) = some (movedCells x r p.firstCell g (field f.body 13 1), g) := by
    rw [resize_move hgrows hfull, firstFit_eq_some hlength hmod hrun hlowest, Option.map_some]
  have hrekey : rekeyCell r.key new = renamed := funext fun e => (hrenamed e).symm
  have hpages := Nat.mul_le_mul_right r.span.cells hgrows.le
  refine ⟨_, execute_answered hx (amend_resized hresizes hresize hamended), by simp [movedCells_length],
    fun j hj hg => ?_, fun i e he hlo hhi => ?_, fun i e he hi => ?_⟩
  · rw [rekeyCells_getElem?, movedCells_own hj hg hlen, hrekey]
  · rw [rekeyCells_getElem?, movedCells_other hgrows.le (by omega), he, Option.map_some, Option.map_some,
      if_pos ⟨hlo, hhi⟩]
    exact congrArg some (rekeyCell_newEntry ..)
  · rw [rekeyCells_getElem?, movedCells_other hgrows.le (by omega), he, Option.map_some, Option.map_some,
      if_neg (by omega), hrekey]
    split
    next => rw [hrenamed]; rfl
    next => rfl

end Sys2Proof.Machine
end

section
/-! SUPPORT. What the operations leave of the directory's order and of the index entries (R18, R44). -/
namespace Sys2Proof.Machine

/-! ## Counting index entries -/

/-- A context uses n index entries, within the capacity of a fiche with index cells; a FREE one uses none (R44). -/
def CountsFor (n : Nat) : Option Fiche → Prop
  | none => n = 0
  | some f => n = f.indexUsed ∧ (f.k ≠ 0 → f.indexUsed ≤ indexCapacity f.format f.k)

/-- The contexts use these numbers of index entries. -/
def State.IndexCounts (s : State) (n : CtxId → Nat) : Prop := ∀ c, CountsFor (n c) (s.fiche c)

theorem indexEntriesAgree_iff {s : State} : s.IndexEntriesAgree ↔ s.IndexCounts s.partsOn := by
  have hcontext : ∀ c n, CountsFor n (s.fiche c) ↔ n = ((s.fiche c).map (·.indexUsed)).getD 0 ∧
      ∀ f, s.fiche c = some f → f.k ≠ 0 → f.indexUsed ≤ indexCapacity f.format f.k := by
    intro c n
    cases s.fiche c <;> simp [CountsFor]
  simp only [State.IndexEntriesAgree, State.IndexCounts, hcontext, forall_and]

/-- What the order of the directory and its parts on each context follow from. -/
def Record.indexed (r : Record) : Key × List CtxId := (r.key, r.parts.map (·.ctx))

theorem countP_ctx (c : CtxId) (r : Record) : r.parts.countP (fun p => p.ctx == c) = r.indexed.2.count c := by
  rw [Record.indexed, List.count, List.countP_map]
  rfl

theorem partsOn_eq (s : State) (c : CtxId) : s.partsOn c = ((s.directory.map Record.indexed).map fun e => e.2.count c).sum := by
  simp only [State.partsOn, countP_ctx, List.map_map, Function.comp_def]

theorem directoryOrdered_iff {s : State} : s.DirectoryOrdered ↔
    (s.directory.map Record.indexed).Pairwise (fun a b => a.1 < b.1) ∧ (s.directory.map Record.indexed).length ≤ 1024 := by
  rw [List.pairwise_map, List.length_map]
  rfl

/-! ## What an update keeps -/

/-- From s to t the keys and the parts' contexts stay, and each context uses the index entries it used. -/
structure KeepsIndex (s t : State) : Prop where
  records : t.directory.map Record.indexed = s.directory.map Record.indexed
  counts : ∀ n, s.IndexCounts n → t.IndexCounts n

theorem KeepsIndex.refl (s : State) : KeepsIndex s s := ⟨rfl, fun _ h => h⟩

theorem KeepsIndex.trans {s t u : State} (h : KeepsIndex s t) (g : KeepsIndex t u) : KeepsIndex s u :=
  ⟨g.records.trans h.records, fun n hn => g.counts n (h.counts n hn)⟩

/-- `KeepsIndex.trans` with the last update first: its state is the one a goal names. -/
theorem KeepsIndex.after {s t u : State} (g : KeepsIndex t u) (h : KeepsIndex s t) : KeepsIndex s u := h.trans g

theorem KeepsIndex.of_same {s t : State} (hd : t.directory = s.directory)
    (hc : t.composer.contexts = s.composer.contexts) : KeepsIndex s t :=
  ⟨by rw [hd], fun n h c => by simpa only [State.fiche, hc] using h c⟩

/-- The directory is ordered still, and then the index entries agree still. -/
def KeepsDirectory (s t : State) : Prop :=
  s.DirectoryOrdered → t.DirectoryOrdered ∧ (s.IndexEntriesAgree → t.IndexEntriesAgree)

theorem KeepsIndex.keepsDirectory {s t : State} (h : KeepsIndex s t) : KeepsDirectory s t := by
  refine fun hs => ⟨?_, fun hi => ?_⟩
  · rw [directoryOrdered_iff, h.records]
    exact directoryOrdered_iff.1 hs
  · have hparts : t.partsOn = s.partsOn := by
      funext c
      rw [partsOn_eq, partsOn_eq, h.records]
    rw [indexEntriesAgree_iff, hparts]
    exact h.counts _ (indexEntriesAgree_iff.1 hi)

theorem KeepsDirectory.trans {s t u : State} (h : KeepsDirectory s t) (g : KeepsDirectory t u) : KeepsDirectory s u :=
  fun hs => ⟨(g (h hs).1).1, fun hi => (g (h hs).1).2 ((h hs).2 hi)⟩

theorem KeepsDirectory.after {s t u : State} (g : KeepsDirectory t u) (h : KeepsDirectory s t) : KeepsDirectory s u :=
  h.trans g

/-! ## Contexts and records -/

theorem indexCounts_setContext {s : State} {n m : CtxId → Nat} {c : CtxId} {x : Option Fiche} (h : s.IndexCounts n)
    (hx : CountsFor (m c) x) (hm : ∀ d, d ≠ c → m d = n d) : (s.setContext c x).IndexCounts m := by
  intro d
  rw [State.fiche_setContext]
  split
  next hd => rwa [hd]
  next hd =>
    rw [hm d hd]
    exact h d

theorem keepsIndex_setContext {s : State} {c : CtxId} {x : Option Fiche}
    (h : ∀ n, CountsFor n (s.fiche c) → CountsFor n x) : KeepsIndex s (s.setContext c x) :=
  ⟨rfl, fun _ hn => indexCounts_setContext hn (h _ (hn c)) fun _ _ => rfl⟩

/-- A fiche of an existing context with its index entries kept. -/
theorem keepsIndex_setFiche {s : State} {c : CtxId} {f g : Fiche} (h : s.fiche c = some f)
    (hg : ∀ n, CountsFor n (some f) → CountsFor n (some g)) : KeepsIndex s (s.setContext c (some g)) :=
  keepsIndex_setContext fun n hn => hg n (by rwa [← h])

theorem keepsIndex_modifyFiche (s : State) (c : CtxId) {g : Fiche → Fiche}
    (hg : ∀ n f, CountsFor n (some f) → CountsFor n (some (g f))) : KeepsIndex s (s.modifyFiche c g) := by
  refine keepsIndex_setContext fun n hn => ?_
  cases h : s.fiche c with
  | none => rwa [h] at hn
  | some f =>
    rw [h] at hn
    exact hg n f hn

theorem keepsIndex_modifyParts {g : RecordPart → Fiche → Fiche}
    (hg : ∀ p n f, CountsFor n (some f) → CountsFor n (some (g p f))) (ps : List RecordPart) :
    ∀ s : State, KeepsIndex s (s.modifyParts ps g) := by
  induction ps with
  | nil => exact .refl
  | cons p ps ih => exact fun s => (ih _).after (keepsIndex_modifyFiche s p.ctx (hg p))

theorem keepsIndex_updateRecord (s : State) (key : Key) {g : Record → Record}
    (hg : ∀ r ∈ s.directory, r.key = key → (g r).indexed = r.indexed) : KeepsIndex s (s.updateRecord key g) := by
  refine ⟨?_, fun n h => h⟩
  rw [State.updateRecord, List.map_map]
  refine List.map_congr_left fun r hr => ?_
  by_cases h : r.key = key <;> simp [h, hg r hr]

/-! ## The end of an event -/

theorem keepsIndex_conclude (before s : State) : KeepsIndex s (before.conclude s) := by
  obtain ⟨-, -, -, hdirectory, hcomposer, -⟩ := conclude_frame before s
  exact .of_same hdirectory (by rw [hcomposer])

theorem keepsIndex_stallTest (s : State) : KeepsIndex s s.stallTest := by
  obtain ⟨-, -, -, hdirectory, hcomposer, -⟩ := stallTest_frame s
  exact .of_same hdirectory (by rw [hcomposer])

/-! ## Updates of other blocks -/

theorem keepsIndex_setQueue (s : State) (l : LaneId) (q : List CtxId) : KeepsIndex s (s.setQueue l q) := .of_same rfl rfl

theorem keepsIndex_setNextSerial (s : State) (l : LaneId) (n : Nat) : KeepsIndex s (s.setNextSerial l n) :=
  .of_same rfl rfl

theorem keepsIndex_setFlag (s : State) (bit : Nat) : KeepsIndex s (s.setFlag bit) := .of_same rfl rfl

theorem keepsIndex_setLaneFlag (s : State) (l : LaneId) (k : LaneFlag) : KeepsIndex s (s.setLaneFlag l k) :=
  .of_same rfl rfl

theorem keepsIndex_withCounters (s : State) (g : Counters → Counters) : KeepsIndex s (s.withCounters g) :=
  .of_same rfl rfl

theorem keepsIndex_countSpoiled (s : State) : KeepsIndex s s.countSpoiled := .of_same rfl rfl

theorem keepsIndex_settleFences (s : State) (c : CtxId) (o : FenceOutcome) : KeepsIndex s (s.settleFences c o) :=
  .of_same rfl rfl

theorem keepsIndex_gate (s : State) (g : Gate) : KeepsIndex s { s with gate := g } := .of_same rfl rfl

theorem keepsIndex_enterGate (s : State) (g : GateState) (x : Option Step) : KeepsIndex s (s.enterGate g x) :=
  .of_same rfl rfl

theorem keepsIndex_intake (s : State) (i : Intake) : KeepsIndex s { s with intake := i } := .of_same rfl rfl

theorem keepsIndex_memory (s : State) (m : Memory) : KeepsIndex s { s with memory := m } := .of_same rfl rfl

/-! ## Queues, the end of composition and interruptions -/

theorem keepsIndex_queueFiche (s : State) (c : CtxId) : KeepsIndex s (s.queueFiche c) := by
  unfold State.queueFiche
  split
  next f hf => exact (keepsIndex_setQueue _ _ _).after (keepsIndex_setFiche hf fun _ h => h)
  next => exact .refl s

theorem keepsIndex_putBack (s : State) (c : CtxId) : KeepsIndex s (s.putBack c) := by
  unfold State.putBack
  split
  next f hf => exact (keepsIndex_setQueue _ _ _).after (keepsIndex_setFiche hf fun _ h => h)
  next => exact .refl s

theorem keepsIndex_expireImageWait (s : State) (c : CtxId) : KeepsIndex s (s.expireImageWait c) := by
  unfold State.expireImageWait
  split
  next f hf =>
    exact (keepsIndex_queueFiche _ c).after ((keepsIndex_withCounters _ _).after ((keepsIndex_setLaneFlag _ _ _).after
      (keepsIndex_setFiche hf fun _ h => h)))
  next => exact .refl s

theorem keepsIndex_completeIfDone (s : State) (c : CtxId) : KeepsIndex s (s.completeIfDone c) := by
  unfold State.completeIfDone
  split
  · split
    · exact keepsIndex_queueFiche s c
    · exact .refl s
  · exact .refl s

theorem keepsIndex_closeFiche (s : State) (c : CtxId) (k : CloseCause) : KeepsIndex s (s.closeFiche c k) := by
  unfold State.closeFiche
  split
  next f hf =>
    have hclosing : KeepsIndex s (s.setContext c (some { f with
        state := .closing, cause := some k, timer := some f.imageWait })) := keepsIndex_setFiche hf fun _ h => h
    dsimp only
    split
    · exact (keepsIndex_queueFiche _ c).after hclosing
    · split
      · exact (keepsIndex_expireImageWait _ c).after hclosing
      · exact hclosing
  next => exact .refl s

/-- A fiche that carries no document used no index entry. -/
theorem keepsIndex_freeEmptyFiche {s : State} {c : CtxId} {f : Fiche} (hf : s.fiche c = some f) (h : f.indexUsed = 0) :
    KeepsIndex s (s.freeEmptyFiche c) := by
  have hfreed : KeepsIndex s (s.setContext c none) := by
    refine keepsIndex_setContext fun n hn => ?_
    rw [hf] at hn
    exact hn.1.trans h
  simp only [State.freeEmptyFiche, hf]
  exact (keepsIndex_setNextSerial _ _ _).after hfreed

theorem keepsIndex_interruptFiche (s : State) (c : CtxId) : KeepsIndex s (s.interruptFiche c) := by
  unfold State.interruptFiche
  split
  next f hf =>
    split
    · exact (keepsIndex_putBack _ c).after (keepsIndex_modifyFiche s c fun _ _ h => h)
    · exact (keepsIndex_settleFences _ _ _).after ((keepsIndex_setLaneFlag _ _ _).after
        (keepsIndex_setFiche hf fun _ h => h))
  next => exact .refl s

/-! ## The gate and image intake -/

theorem keepsIndex_readBuffer (s : State) (c : CtxId) (f : Format) (buffer : Nat) :
    KeepsIndex s (s.readBuffer c f buffer).2 := by
  unfold State.readBuffer
  dsimp only
  exact (keepsIndex_withCounters _ _).after ((keepsIndex_modifyFiche _ c (by exact fun _ _ h => h)).after
    (keepsIndex_memory s _))

theorem keepsIndex_modifyCell (s : State) (c : CtxId) (cell : Nat) (g : Occupied → Occupied) :
    KeepsIndex s (s.modifyCell c cell g) := keepsIndex_modifyFiche s c fun _ _ h => h

theorem keepsIndex_saturateCell (s : State) (c : CtxId) (cell : Nat) : KeepsIndex s (s.saturateCell c cell) := by
  unfold State.saturateCell
  exact (keepsIndex_withCounters _ _).after ((keepsIndex_modifyFiche _ c (by exact fun _ _ h => h)).after
    (keepsIndex_modifyCell s c cell _))

theorem keepsIndex_showCell (s : State) (c : CtxId) (f : Fiche) (cell : Nat) (o : Occupied) :
    KeepsIndex s (s.showCell c f cell o).2 := by
  unfold State.showCell
  dsimp only
  split
  next b _ _ =>
    have hread := keepsIndex_readBuffer s c ((s.memory.extent b).getD f.format) b
    have hshown : ∀ t : State, KeepsIndex t (if pageClamps (s.driveSettings f) ((s.memory.extent b).getD f.format)
        (s.memory.content ((s.memory.extent b).getD f.format) b) then t.saturateCell c cell else t) := by
      intro t
      split
      · exact keepsIndex_saturateCell t c cell
      · exact .refl t
    split
    next t ht =>
      rw [ht] at hread
      exact (keepsIndex_modifyCell _ _ _ _).after ((keepsIndex_setLaneFlag _ _ _).after hread)
    all_goals
      next t ht =>
        rw [ht] at hread
        exact hread.trans (hshown t)
  next b _ _ =>
    have hread := keepsIndex_readBuffer s c ((s.memory.extent b).getD f.format) b
    split
    next t ht =>
      rw [ht] at hread
      exact (keepsIndex_setLaneFlag _ _ _).after hread
    all_goals
      next t ht => rwa [ht] at hread
  all_goals exact .refl s

theorem keepsIndex_finishPages (s : State) (c : CtxId) : KeepsIndex s (s.finishPages c) := by
  unfold State.finishPages
  split
  · split <;> exact keepsIndex_enterGate s _ _
  · exact .refl s

theorem keepsIndex_reachFrom (s : State) (c : CtxId) (start : Nat) : KeepsIndex s (s.reachFrom c start) := by
  unfold State.reachFrom
  split
  · split
    · exact (keepsIndex_enterGate _ _ _).after (keepsIndex_showCell s c _ _ _)
    · exact keepsIndex_finishPages s c
  · exact .refl s

theorem keepsIndex_stopTransport (s : State) : KeepsIndex s s.stopTransport := by
  unfold State.stopTransport
  dsimp only
  split
  · exact (keepsIndex_gate _ _).after ((keepsIndex_interruptFiche _ _).after ((keepsIndex_countSpoiled _).after
      (keepsIndex_setFlag s _)))
  · exact (keepsIndex_gate _ _).after (keepsIndex_setFlag s _)

theorem keepsIndex_lampFails (s : State) : KeepsIndex s s.lampFails := .of_same rfl rfl

theorem keepsIndex_spoilExposure (s : State) (c : CtxId) : KeepsIndex s (s.spoilExposure c) :=
  (keepsIndex_gate (s.countSpoiled.interruptFiche c) _).after ((keepsIndex_interruptFiche _ c).after
    (keepsIndex_countSpoiled s))

theorem keepsIndex_reject (s : State) (why : Rejection) : KeepsIndex s (s.reject why) := by
  cases why <;> exact .of_same rfl rfl

theorem keepsIndex_discard (s : State) (h : Header) (why : Rejection) : KeepsIndex s (s.discard h why) :=
  (keepsIndex_intake _ _).after (keepsIndex_reject s why)

theorem keepsIndex_judgeHeader (s : State) (h : Header) : KeepsIndex s (s.judgeHeader h) := by
  unfold State.judgeHeader
  split
  · exact keepsIndex_discard s h _
  · split
    · exact keepsIndex_discard s h _
    · dsimp only
      split <;> exact .of_same rfl rfl

theorem keepsIndex_endTransfer (s : State) (m : Matched) (buffers : List Nat) : KeepsIndex s (s.endTransfer m buffers) := by
  unfold State.endTransfer
  dsimp only
  split
  · exact (keepsIndex_reject _ _).after (keepsIndex_intake s _)
  next r p f hj =>
    split
    · exact (keepsIndex_reject _ _).after (keepsIndex_intake s _)
    · refine (keepsIndex_completeIfDone _ _).after (.after (keepsIndex_updateRecord _ _ (by exact fun _ _ _ => rfl))
        (.after ?_ (keepsIndex_intake s (.ready []))))
      exact keepsIndex_setFiche (f := f) (fiche_of_judge hj) fun _ h => h

end Sys2Proof.Machine
end

section
/-! SUPPORT. The requests that change the directory keep its order and the index entries: PLACE, AMEND, WITHDRAW, PURGE,
RELEASE (R18, R22, R34, R37, R44, R53). -/
namespace Sys2Proof.Machine

/-! ## Fiches that leave composition leave the other contexts -/

section
variable {s : State} {c d : CtxId}

theorem fiche_queueFiche_of_ne (h : d ≠ c) : (s.queueFiche c).fiche d = s.fiche d := by
  unfold State.queueFiche
  split
  · rw [State.fiche_setQueue, State.fiche_setContext_of_ne h]
  · rfl

theorem fiche_expireImageWait_of_ne (h : d ≠ c) : (s.expireImageWait c).fiche d = s.fiche d := by
  unfold State.expireImageWait
  split
  · exact (fiche_queueFiche_of_ne h).trans (State.fiche_setContext_of_ne h)
  · rfl

theorem fiche_closeFiche_of_ne (h : d ≠ c) (k : CloseCause) : (s.closeFiche c k).fiche d = s.fiche d := by
  unfold State.closeFiche
  split
  · dsimp only
    split
    · exact (fiche_queueFiche_of_ne h).trans (State.fiche_setContext_of_ne h)
    · split
      · exact (fiche_expireImageWait_of_ne h).trans (State.fiche_setContext_of_ne h)
      · exact State.fiche_setContext_of_ne h
  · rfl

end

/-! ## Placing parts -/

theorem keepsIndex_openFiche {s : State} {c : CtxId} (hc : s.fiche c = none) (l : LaneId) (d : LaneDef)
    (titles : Option (List TitleLine × Nat)) : KeepsIndex s (s.openFiche c l d titles) := by
  refine (keepsIndex_setNextSerial _ _ _).after (keepsIndex_setContext fun n hn => ?_)
  rw [hc] at hn
  exact ⟨hn, fun _ => Nat.zero_le _⟩

/-- These parts are placed: the keys and the parts in the directory stay, and the contexts of the new parts use as many index
entries more. -/
structure PlacesParts (s t : State) (parts : List RecordPart) : Prop where
  records : t.directory.map Record.indexed = s.directory.map Record.indexed
  counts : ∀ n, s.IndexCounts n → t.IndexCounts fun c => n c + parts.countP fun p => p.ctx == c

theorem KeepsIndex.placesParts {s t u : State} {parts : List RecordPart} (h : KeepsIndex s t)
    (g : PlacesParts t u parts) : PlacesParts s u parts :=
  ⟨g.records.trans h.records, fun n hn => g.counts n (h.counts n hn)⟩

theorem PlacesParts.keepsIndex {s t u : State} {parts : List RecordPart} (g : PlacesParts s t parts)
    (h : KeepsIndex t u) : PlacesParts s u parts :=
  ⟨h.records.trans g.records, fun n hn => h.counts _ (g.counts n hn)⟩

theorem PlacesParts.append {s t u : State} {ps qs : List RecordPart} (h : PlacesParts s t ps) (g : PlacesParts t u qs) :
    PlacesParts s u (ps ++ qs) := by
  refine ⟨g.records.trans h.records, fun n hn => ?_⟩
  simpa only [List.countP_append, Nat.add_assoc] using g.counts _ (h.counts n hn)

/-- A part takes one index entry of a fiche that has one free (R53). -/
theorem placesParts_placePart {s : State} {p : RecordPart} {f : Fiche} (hf : s.fiche p.ctx = some f)
    (hfree : f.indexEntryFree = true) (key : Key) (span : Span) : PlacesParts s (s.placePart key span p) [p] := by
  refine ⟨rfl, fun n hn => ?_⟩
  rw [State.placePart, modifyFiche_of_fiche hf]
  refine indexCounts_setContext hn ?_ fun d hd => by simp [Ne.symm hd]
  have hcounts := hn p.ctx
  rw [hf] at hcounts
  refine ⟨by simp [hcounts.1], fun hk => ?_⟩
  have hk' : f.k.val ≠ 0 := fun h => hk (Fin.ext h)
  simpa [Fiche.indexEntryFree, hk', Nat.succ_le_iff] using hfree

theorem indexEntryFree_newFiche (l : LaneId) (d : LaneDef) (serial : Nat) (titles : Option (List TitleLine × Nat)) :
    (newFiche l d serial titles).indexEntryFree = true := by
  have hentries : 0 < d.format.indexEntries := by cases d.format <;> decide
  rcases Nat.eq_zero_or_pos d.k.val with h | h
  · simp [Fiche.indexEntryFree, newFiche, h]
  · simp [Fiche.indexEntryFree, newFiche, indexCapacity, h, hentries]

section
variable {s : State} {c x : CtxId} {f : Fiche} {l : LaneId} {d : LaneDef} {key : Key} {span : Span} {n : Nat} {p : Placement}

theorem placesParts_placeOnNew (hc : s.fiche c = none) (q n : Nat) :
    PlacesParts s (s.placeOnNew c l d key span q n).1 [(s.placeOnNew c l d key span q n).2] :=
  (keepsIndex_openFiche hc l d none).placesParts (placesParts_placePart (State.fiche_setContext_self s c _)
    (indexEntryFree_newFiche l d _ none) key span)

theorem placesParts_placeFresh (h : s.placeFresh l d key span n = some p) : PlacesParts s p.state p.parts := by
  obtain ⟨c, hc, rfl⟩ := Option.map_eq_some_iff.1 h
  exact placesParts_placeOnNew (lowestFree_eq_some_iff.1 hc).1 1 n

theorem placesParts_placeSplit {t : Nat} (hf : s.fiche x = some f) (hfree : f.indexEntryFree = true)
    (h : s.placeSplit x f l d key span n t = some p) : PlacesParts s p.state p.parts := by
  obtain ⟨c, hc, rfl⟩ := Option.map_eq_some_iff.1 h
  have hc := (lowestFree_eq_some_iff.1 hc).1
  have hne : c ≠ x := fun h => by simp [h, hf] at hc
  let tail : RecordPart := ⟨x, f.serial, tailStart f.cells (usableCells f.format f.k) span.cells, 1, t⟩
  have htail : PlacesParts s ((s.placePart key span tail).closeFiche x .split) [tail] :=
    (placesParts_placePart hf hfree key span).keepsIndex (keepsIndex_closeFiche _ x .split)
  refine htail.append (placesParts_placeOnNew ?_ (t + 1) (n - t))
  rw [fiche_closeFiche_of_ne hne, State.placePart, State.fiche_modifyFiche, if_neg hne, hc]

theorem placesParts_placeAfterFull (hf : s.fiche x = some f) (h : s.placeAfterFull x l d key span n = some p) :
    PlacesParts s p.state p.parts := by
  obtain ⟨c, hc, rfl⟩ := Option.map_eq_some_iff.1 h
  have hc := (lowestFree_eq_some_iff.1 hc).1
  have hne : c ≠ x := fun h => by simp [h, hf] at hc
  exact (keepsIndex_closeFiche s x .full).placesParts (placesParts_placeOnNew
    ((fiche_closeFiche_of_ne hne .full).trans hc) 1 n)

theorem placesParts_placeAfterDiscard (hf : s.fiche x = some f) (hempty : f.indexUsed = 0)
    (h : s.placeAfterDiscard x f l d key span n = some p) : PlacesParts s p.state p.parts := by
  obtain ⟨c, hc, rfl⟩ := Option.map_eq_some_iff.1 h
  exact (keepsIndex_freeEmptyFiche hf hempty).placesParts (placesParts_placeOnNew (lowestFree_eq_some_iff.1 hc).1 1 n)

/-- Every way of placing a document places its parts (R51 to R56). -/
theorem placesParts_choosePlace (h : s.choosePlace l d key span n = some p) : PlacesParts s p.state p.parts := by
  unfold State.choosePlace at h
  split at h
  · exact placesParts_placeFresh h
  next x f hxf =>
    obtain ⟨y, -, hy⟩ := Option.bind_eq_some_iff.1 hxf
    obtain ⟨g, hf, hgf⟩ := Option.map_eq_some_iff.1 hy
    cases hgf
    dsimp only at h
    split at h
    next g hg =>
      cases h
      refine placesParts_placePart hf ?_ key span
      by_contra hfull
      simp [hfull] at hg
    next =>
      split at h
      next hsplit => exact placesParts_placeSplit hf hsplit.2.2 h
      next =>
        split at h
        next => exact placesParts_placeAfterFull hf h
        next hempty => exact placesParts_placeAfterDiscard hf (not_not.1 hempty) h

end

/-! ## Records that enter and leave -/

/-- Parts on a context, counted in any order of the records. -/
theorem sum_countP_perm {rs qs : List Record} (h : rs.Perm qs) (c : CtxId) :
    (rs.map fun r => r.parts.countP fun p => p.ctx == c).sum = (qs.map fun r => r.parts.countP fun p => p.ctx == c).sum :=
  (h.map _).sum_eq

theorem KeepsDirectory.of_counts {s t : State} (ho : s.DirectoryOrdered → t.DirectoryOrdered)
    (hc : s.DirectoryOrdered → s.IndexCounts s.partsOn → t.IndexCounts t.partsOn) : KeepsDirectory s t :=
  fun hs => ⟨ho hs, fun hi => indexEntriesAgree_iff.2 (hc hs (indexEntriesAgree_iff.1 hi))⟩

/-- A record whose parts are placed enters the directory under a key that is not held (R18, R21). -/
theorem keepsDirectory_insert {s t : State} {r : Record} (h : PlacesParts s t r.parts) (hnew : s.record r.key = none)
    (hroom : s.directory.length < 1024) : KeepsDirectory s { t with directory := insertRecord r t.directory } := by
  have hperm := insertRecord_perm r t.directory
  have hnew' : ∀ q ∈ t.directory, q.key ≠ r.key := by
    intro q hq
    have hmem : q.indexed ∈ s.directory.map Record.indexed := h.records ▸ List.mem_map_of_mem hq
    obtain ⟨q', hq', heq⟩ := List.mem_map.1 hmem
    have hkey : q'.key = q.key := congrArg Prod.fst heq
    exact hkey ▸ record_eq_none_iff.1 hnew q' hq'
  have hlength : t.directory.length = s.directory.length := by simpa using congrArg List.length h.records
  refine .of_counts (fun hs => ⟨?_, ?_⟩) fun hs hi => ?_
  · have ht : t.DirectoryOrdered := by
      rw [directoryOrdered_iff, h.records]
      exact directoryOrdered_iff.1 hs
    exact Ascending.insertRecord ht.1 hnew'
  · have := hperm.length_eq
    simp only [List.length_cons] at this ⊢
    omega
  · intro c
    have hparts : ({ t with directory := insertRecord r t.directory } : State).partsOn c =
        s.partsOn c + r.parts.countP fun p => p.ctx == c := by
      rw [partsOn_eq s, ← h.records, ← partsOn_eq t]
      exact (sum_countP_perm hperm c).trans (Nat.add_comm _ _)
    rw [hparts]
    exact h.counts _ hi c

/-- Records leave the directory and return the index entries of their parts (R37, R39). -/
theorem keepsDirectory_withdraw {s : State} {rs : List Record}
    (hperm : s.DirectoryOrdered → s.directory.Perm (rs ++ (rs.foldl State.withdrawRecord s).directory)) :
    KeepsDirectory s (rs.foldl State.withdrawRecord s) := by
  refine .of_counts (fun hs => ?_) fun hs hi c => ?_
  · rw [foldl_withdrawRecord_frame]
    exact ⟨Ascending.filter hs.1 _, (List.length_filter_le _ _).trans hs.2⟩
  · have hparts := sum_countP_perm (hperm hs) c
    rw [List.map_append, List.sum_append] at hparts
    replace hparts : s.partsOn c = _ + (rs.foldl State.withdrawRecord s).partsOn c := hparts
    have hcounts := hi c
    cases hx : s.fiche c with
    | none =>
      rw [fiche_foldl_withdrawRecord_none rs hx]
      rw [hx] at hcounts
      have hzero : s.partsOn c = 0 := hcounts
      show (rs.foldl State.withdrawRecord s).partsOn c = 0
      omega
    | some x =>
      obtain ⟨y, hy, hw⟩ := fiche_foldl_withdrawRecord rs hx
      rw [hx] at hcounts
      obtain ⟨hused, hcapacity⟩ := hcounts
      rw [hy, hw.fiche]
      refine ⟨?_, fun hk => (Nat.sub_le _ _).trans (hcapacity hk)⟩
      show _ = x.indexUsed - _
      omega

/-! ## A record changed -/

/-- The record of a key put under a key that no other record has (R34). -/
theorem keepsDirectory_rekey {t : State} {r : Record} {new : Key} (hr : r ∈ t.directory)
    (hnew : ∀ q ∈ t.directory.filter (fun q => q.key != r.key), q.key ≠ new) : KeepsDirectory t (t.rekey r new) := by
  have hdirectory : (t.rekey r new).directory =
      insertRecord { r with key := new } (t.directory.filter fun q => q.key != r.key) := by rw [rekey_eq]
  have hperm := insertRecord_perm { r with key := new } (t.directory.filter fun q => q.key != r.key)
  refine .of_counts (fun hs => ⟨?_, ?_⟩) fun hs hi => ?_
  · rw [hdirectory]
    exact (Ascending.filter hs.1 _).insertRecord hnew
  · have hlength := (Ascending.perm_cons_filter hs.1 hr).length_eq
    rw [hdirectory, hperm.length_eq, List.length_cons, ← List.length_cons (a := r), ← hlength]
    exact hs.2
  · have hparts : (t.rekey r new).partsOn = t.partsOn := by
      funext c
      have hsame := sum_countP_perm (Ascending.perm_cons_filter hs.1 hr) c
      have hinserted := sum_countP_perm hperm c
      simp only [State.partsOn, hdirectory, hsame, hinserted, List.map_cons]
    rw [hparts, rekey_eq]
    exact (keepsIndex_modifyParts (g := fun _ => Fiche.rekey r.key new) (fun _ _ _ h => h) r.parts t).counts _ hi

/-- The page count applied leaves the record in the directory, under its key and on its contexts (R61). -/
theorem keepsIndex_applyPageCount {s t : State} {r r' : Record} {count : Option Nat}
    (h : s.applyPageCount r count = some (t, r')) (hs : s.DirectoryOrdered) (hr : r ∈ s.directory) :
    KeepsIndex s t ∧ r' ∈ t.directory ∧
      t.directory.filter (fun q => q.key != r'.key) = s.directory.filter fun q => q.key != r.key := by
  unfold State.applyPageCount at h
  split at h
  next m p rest hparts =>
    split at h
    · cases h
      exact ⟨.refl s, hr, rfl⟩
    · obtain ⟨f, hf, h⟩ := Option.bind_eq_some_iff.1 h
      obtain ⟨⟨cells, first⟩, -, h⟩ := Option.map_eq_some_iff.1 h
      cases h
      refine ⟨(keepsIndex_updateRecord _ _ fun q hq hk => ?_).after (keepsIndex_setFiche hf fun _ h => h), ?_, ?_⟩
      · rw [Ascending.eq_of_key_eq hs.1 hq hr hk]
        simp [Record.indexed, hparts]
      · exact List.mem_map.2 ⟨r, hr, if_pos rfl⟩
      · exact filter_update s.directory rfl
  next =>
    cases h
    exact ⟨.refl s, hr, rfl⟩

/-! ## A context freed -/

/-- A record with no part counts nowhere. -/
theorem sum_countP_nonempty (d : CtxId) (rs : List Record) :
    ((rs.filter fun r => !r.parts.isEmpty).map fun r => r.parts.countP fun p => p.ctx == d).sum =
      (rs.map fun r => r.parts.countP fun p => p.ctx == d).sum := by
  induction rs with
  | nil => rfl
  | cons r rs ih =>
    rw [List.filter_cons]
    split
    next => simp [ih]
    next h =>
      have hnone : r.parts = [] := by simpa using h
      simp [ih, hnone]

/-- A release leaves of each record the parts on other contexts (R22). -/
theorem parts_released (c : CtxId) (exposed : Bool) (r : Record) :
    (if r.onContext c then r.releaseFrom c exposed else r).parts = r.parts.filter fun p => p.ctx != c := by
  split
  next => rfl
  next h =>
    refine (List.filter_eq_self.2 fun p hp => ?_).symm
    by_contra hc
    exact h (List.any_eq_true.2 ⟨p, hp, by simpa using hc⟩)

theorem sum_countP_releaseRecords (c d : CtxId) (exposed : Bool) (rs : List Record) :
    ((releaseRecords c exposed rs).map fun r => r.parts.countP fun p => p.ctx == d).sum =
      if d = c then 0 else (rs.map fun r => r.parts.countP fun p => p.ctx == d).sum := by
  have hcount : ∀ r : Record, (r.parts.filter fun p => p.ctx != c).countP (fun p => p.ctx == d) =
      if d = c then 0 else r.parts.countP fun p => p.ctx == d := by
    intro r
    rw [List.countP_filter]
    split
    next h => simp [h]
    next h =>
      refine List.countP_congr fun p _ => ?_
      simp only [Bool.and_eq_true, beq_iff_eq, bne_iff_ne, and_iff_left_iff_imp]
      rintro rfl
      exact h
  rw [releaseRecords, sum_countP_nonempty, List.map_map]
  simp only [Function.comp_def, parts_released, hcount]
  split <;> simp

theorem keepsDirectory_release (s : State) (c : CtxId) (exposed : Bool) :
    KeepsDirectory s { s.setContext c none with directory := releaseRecords c exposed s.directory } := by
  refine .of_counts (fun hs => ⟨?_, ?_⟩) fun _ hi => ?_
  · refine (Ascending.map hs.1 fun r => ?_).filter _
    split <;> rfl
  · exact ((List.length_filter_le _ _).trans (List.length_map _).le).trans hs.2
  · have hparts : ({ s.setContext c none with directory := releaseRecords c exposed s.directory } : State).partsOn =
        fun d => if d = c then 0 else s.partsOn d := funext fun d => sum_countP_releaseRecords c d exposed s.directory
    rw [hparts]
    exact indexCounts_setContext hi (if_pos rfl) fun d hd => if_neg hd

end Sys2Proof.Machine
end

section
/-! SUPPORT. The requests that change the directory or a context keep its order and the index entries (R18, R44). -/
namespace Sys2Proof.Machine

/-! ## The requests of the directory -/

theorem keepsDirectory_refl (s : State) : KeepsDirectory s s := (KeepsIndex.refl s).keepsDirectory

theorem keepsDirectory_amend (f : Frame) (s : State) : KeepsDirectory s (amend f s).1 := by
  unfold amend
  extract_lets key changes newKey count expected tests put
  split
  · exact keepsDirectory_refl s
  · split
    · exact keepsDirectory_refl s
    next r hr =>
      obtain ⟨hmem, hkey⟩ := mem_of_record hr
      split
      · exact keepsDirectory_refl s
      · split
        · exact keepsDirectory_refl s
        · split
          · exact keepsDirectory_refl s
          next hfresh =>
            split
            · exact keepsDirectory_refl s
            · split
              · exact keepsDirectory_refl s
              next t r' ht =>
                intro hs
                obtain ⟨hcounted, hmem', hfilter⟩ := keepsIndex_applyPageCount ht hs hmem
                refine KeepsDirectory.after (((keepsIndex_stallTest _).after (keepsIndex_updateRecord _ _
                  (by exact fun _ _ _ => rfl))).keepsDirectory) (hcounted.keepsDirectory.trans ?_) hs
                split
                next hnew =>
                  obtain ⟨k, hk⟩ := Option.isSome_iff_exists.1 hnew
                  have hput : put = k := by simp only [put, hk, Option.getD_some]
                  have hother : put = r.key ∨ s.record put = none := by
                    rw [hput]
                    rw [hk, ← hkey] at hfresh
                    by_cases h : k = r.key
                    · exact .inl h
                    · exact .inr (by simpa [h] using hfresh)
                  refine keepsDirectory_rekey hmem' ?_
                  rw [hfilter]
                  exact record_fresh hother
                next => exact keepsDirectory_refl t

theorem keepsDirectory_withdrawRecord {s : State} {key : Key} {r : Record} (hr : s.record key = some r) :
    KeepsDirectory s (s.withdrawRecord r) := by
  refine keepsDirectory_withdraw (rs := [r]) fun hs => ?_
  rw [List.foldl_cons, List.foldl_nil, withdrawRecord_frame]
  exact Ascending.perm_cons_filter hs.1 (mem_of_record hr).1

theorem keepsDirectory_withdrawRequest (f : Frame) (s : State) : KeepsDirectory s (withdraw f s).1 := by
  unfold withdraw
  dsimp only
  split
  · exact keepsDirectory_refl s
  · split
    · exact keepsDirectory_refl s
    next r hr =>
      split
      · exact keepsDirectory_refl s
      · split
        · exact keepsDirectory_refl s
        · exact (keepsIndex_stallTest _).keepsDirectory.after (keepsDirectory_withdrawRecord hr)

theorem keepsDirectory_purge (f : Frame) (s : State) : KeepsDirectory s (purge f s).1 := by
  unfold purge
  split
  · exact keepsDirectory_refl s
  next lane _ =>
    refine (keepsIndex_stallTest _).keepsDirectory.after (keepsDirectory_withdraw fun hs => ?_)
    rw [List.partition_eq_filter_filter, List.filter_filter, foldl_withdrawRecord_frame]
    simp only [Ascending.filter_keys hs.1]
    exact (List.filter_append_perm _ _).symm

theorem keepsDirectory_place (f : Frame) (s : State) : KeepsDirectory s (place f s).1 := by
  unfold place
  dsimp only
  split
  next cls span _ _ =>
    split
    · exact keepsDirectory_refl s
    · split
      · exact keepsDirectory_refl s
      · split
        · exact keepsDirectory_refl s
        next hnew =>
          split
          · exact keepsDirectory_refl s
          next hroom =>
            split
            · exact keepsDirectory_refl s
            · split
              · exact keepsDirectory_refl s
              next p hp =>
                exact (keepsIndex_conclude _ _).keepsDirectory.after (keepsDirectory_insert (r := ⟨fieldKey f.body 0, cls,
                  _, span, _, 0, p.parts, 0⟩) (placesParts_choosePlace hp) (by simpa using hnew) (by omega))
  · exact keepsDirectory_refl s

theorem keepsIndex_countByte (s : State) (n : Nat) : KeepsIndex s (s.countByte n).2 := by
  unfold State.countByte
  split
  · exact .refl s
  · exact .of_same rfl rfl

theorem keepsDirectory_releaseRequest (f : Frame) (s : State) : KeepsDirectory s (release f s).1 := by
  unfold release
  split
  · dsimp only
    split
    · exact keepsDirectory_refl s
    · split
      · exact keepsDirectory_refl s
      · split
        · exact keepsDirectory_refl s
        · exact (keepsIndex_stallTest _).keepsDirectory.after ((keepsDirectory_release _ _ _).after
            (keepsIndex_countByte s _).keepsDirectory)
  · exact keepsDirectory_refl s

/-! ## The other requests -/

theorem keepsIndex_openRequest (f : Frame) (s : State) : KeepsIndex s (openFiche f s).1 := by
  unfold openFiche
  split
  · split
    · exact .refl s
    · split
      · exact .refl s
      · split
        · exact .refl s
        next c hc => exact keepsIndex_openFiche (lowestFree_eq_some_iff.1 hc).1 _ _ _
  · exact .refl s

theorem keepsIndex_readFiche (f : Frame) (s : State) : KeepsIndex s (readFiche f s).1 := by
  unfold readFiche
  dsimp only
  split
  · exact .refl s
  · split
    · exact .refl s
    · split
      · exact .refl s
      · exact keepsIndex_countByte s _

theorem keepsIndex_close (f : Frame) (s : State) : KeepsIndex s (close f s).1 := by
  unfold close
  split
  · split
    · exact .refl s
    · split
      · exact .refl s
      next x hx =>
        dsimp only
        split
        next hempty => exact keepsIndex_freeEmptyFiche hx hempty
        next => exact (keepsIndex_conclude _ _).after (keepsIndex_closeFiche s _ _)
  · exact .refl s

theorem keepsIndex_requeue (f : Frame) (s : State) : KeepsIndex s (requeue f s).1 := by
  unfold requeue
  split
  · split
    · exact .refl s
    next x hx =>
      split
      · exact .refl s
      · exact (keepsIndex_conclude _ _).after ((keepsIndex_queueFiche _ _).after
          (keepsIndex_setFiche hx fun _ h => h))
  · exact .refl s

theorem keepsIndex_softReset (f : Frame) (s : State) : KeepsIndex s (softReset f s).1 := by
  have hgate : KeepsIndex s s.softResetGate := by
    unfold State.softResetGate
    split
    · exact (keepsIndex_enterGate _ _ _).after ((keepsIndex_putBack _ _).after (keepsIndex_countSpoiled s))
    · exact .refl s
  have hreset : ∀ (t : State) (a : Arbiter), KeepsIndex t.abortFences { t.abortFences with intake := .ready [], arbiter := a } :=
    fun t a => .of_same rfl rfl
  have habort : ∀ t : State, KeepsIndex t t.abortFences := fun t => .of_same rfl rfl
  exact (keepsIndex_conclude _ _).after ((hreset _ _).after ((habort _).after hgate))

end Sys2Proof.Machine
end

section
/-! SUPPORT. Every command keeps the directory's order and the index entries; the invariants at reset. -/
namespace Sys2Proof.Machine

/-! ## Requests that touch neither the directory nor a context -/

theorem keepsIndex_defineLane (f : Frame) (s : State) : KeepsIndex s (defineLane f s).1 := by
  unfold defineLane
  split
  · exact .refl s
  next l action d _ =>
    split
    · exact .refl s
    · have hcolumn : ∀ t : State, KeepsIndex t (t.columnByte d).2 := by
        intro t
        unfold State.columnByte
        split
        · exact .refl t
        · exact .of_same rfl rfl
      exact (hcolumn _).after (.of_same rfl rfl)

theorem keepsIndex_mapClass (f : Frame) (s : State) : KeepsIndex s (mapClass f s).1 := by
  unfold mapClass
  split
  · split
    · exact .refl s
    · exact .of_same rfl rfl
  · exact .refl s

theorem keepsIndex_lookup (f : Frame) (s : State) : KeepsIndex s (lookup f s).1 := by
  unfold lookup
  dsimp only
  split <;> exact .refl s

theorem keepsIndex_findNext (f : Frame) (s : State) : KeepsIndex s (findNext f s).1 := by
  unfold findNext
  dsimp only
  split
  · exact .refl s
  · split
    · exact .refl s
    · split <;> exact .refl s

theorem keepsIndex_fence (f : Frame) (s : State) : KeepsIndex s (fence f s).1 := by
  unfold fence
  dsimp only
  split
  · exact .refl s
  · split
    · exact .refl s
    · split
      · exact .refl s
      · exact .of_same rfl rfl

theorem keepsIndex_arbiter (s : State) (a : Arbiter) : KeepsIndex s { s with arbiter := a } := .of_same rfl rfl

theorem keepsIndex_loadArbitration (f : Frame) (s : State) : KeepsIndex s (loadArbitration f s).1 := by
  unfold loadArbitration
  exact keepsIndex_arbiter s _

theorem keepsIndex_loadCurve (f : Frame) (s : State) : KeepsIndex s (loadCurve f s).1 := by
  unfold loadCurve
  split
  · exact .refl s
  · exact keepsIndex_gate s _

theorem keepsIndex_setFilm (f : Frame) (s : State) : KeepsIndex s (setFilm f s).1 := by
  unfold setFilm
  dsimp only
  split
  · exact .refl s
  · exact (keepsIndex_conclude _ _).after (keepsIndex_gate s _)

theorem keepsIndex_setStandby (f : Frame) (s : State) : KeepsIndex s (setStandby f s).1 := keepsIndex_gate s _

theorem keepsIndex_lampOn (f : Frame) (s : State) : KeepsIndex s (lampOn f s).1 := by
  unfold lampOn
  split
  · exact .refl s
  · split
    case h_5 => exact .refl s
    all_goals exact keepsIndex_gate s _

theorem keepsIndex_lampOff (f : Frame) (s : State) : KeepsIndex s (lampOff f s).1 := by
  unfold lampOff
  split
  · exact .refl s
  · split
    · exact .refl s
    · exact keepsIndex_gate s _

theorem keepsIndex_lampClear (f : Frame) (s : State) : KeepsIndex s (lampClear f s).1 := by
  unfold lampClear
  split
  · exact keepsIndex_gate s _
  all_goals exact .refl s

theorem keepsIndex_readAttention (f : Frame) (s : State) : KeepsIndex s (readAttention f s).1 := by
  unfold readAttention
  dsimp only
  split
  · exact .refl s
  · exact .of_same rfl rfl

theorem keepsIndex_setAttentionMask (f : Frame) (s : State) : KeepsIndex s (setAttentionMask f s).1 := by
  unfold setAttentionMask
  dsimp only
  split
  · exact .refl s
  · exact .of_same rfl rfl

theorem keepsIndex_readCounters (f : Frame) (s : State) : KeepsIndex s (readCounters f s).1 := by
  unfold readCounters
  split
  · exact .refl s
  · dsimp only
    split
    · exact keepsIndex_withCounters s _
    · exact .refl s

/-! ## A request taken from the waiting list -/

/-- Taking the frame and posting its reply touch the host port alone. -/
theorem execute_keepsDirectory {s t : State} {row : RequestRow} {act : Frame → State → State × Answer}
    (hact : ∀ f, KeepsDirectory s (act f s).1) (h : s.execute row act = .next t) : KeepsDirectory s t := by
  have hport : ∀ (u : State) (p : Port), KeepsDirectory u { u with port := p } :=
    fun u p => (KeepsIndex.of_same rfl rfl).keepsDirectory
  rcases execute_cases s row act with
    he | ⟨f, rest, -, -, -, ⟨k, -, he⟩ | ⟨-, u, ha, he⟩ | ⟨-, u, k, b, ha, he⟩⟩ <;>
    rw [h] at he <;> cases he
  · exact keepsDirectory_refl s
  · exact hport s _
  all_goals
    have hu := hact f
    rw [ha] at hu
    exact (hport u _).after hu

theorem execute_keepsIndex {s t : State} {row : RequestRow} {act : Frame → State → State × Answer}
    (hact : ∀ f, KeepsIndex s (act f s).1) (h : s.execute row act = .next t) : KeepsDirectory s t :=
  execute_keepsDirectory (fun f => (hact f).keepsDirectory) h

/-! ## Frames, the reset line and power-on -/

theorem execFrameArrival_keepsIndex {s t : State} {strobed : List Byte} (h : execFrameArrival strobed s = .next t) :
    KeepsIndex s t := by
  unfold execFrameArrival at h
  split at h
  · cases h
    exact .refl s
  · split at h
    · cases h
      exact .of_same rfl rfl
    · split at h
      · cases h
        exact .refl s
      · dsimp only at h
        split at h
        · cases h
          exact .of_same rfl rfl
        · cases h
          unfold State.refuseFrame
          split <;> exact .of_same rfl rfl

theorem execSendCompletion_keepsIndex {s t : State} (h : execSendCompletion s = .next t) : KeepsIndex s t := by
  unfold execSendCompletion at h
  cases h
  split
  · exact .refl s
  · exact .of_same rfl rfl

/-- At reset every context is FREE. -/
theorem fiche_reset (c : CtxId) : State.reset.fiche c = none := by
  simp [State.fiche, State.reset, Composer.initial, Vector.get_eq_getElem]

theorem reset_directoryOrdered : State.reset.DirectoryOrdered := ⟨.nil, Nat.zero_le _⟩

theorem reset_indexEntriesAgree : State.reset.IndexEntriesAgree := by
  refine indexEntriesAgree_iff.2 fun c => ?_
  rw [fiche_reset]
  exact rfl

/-- What has the directory and the contexts of power-on has an ordered directory and index entries that agree. -/
theorem keepsDirectory_of_reset {s t : State} (hd : t.directory = State.reset.directory)
    (hc : t.composer.contexts = State.reset.composer.contexts) : KeepsDirectory s t := fun _ =>
  have hreset := (KeepsIndex.of_same hd hc).keepsDirectory reset_directoryOrdered
  ⟨hreset.1, fun _ => hreset.2 reset_indexEntriesAgree⟩

theorem execResetLine_keepsDirectory {s t : State} (h : execResetLine s = .next t) : KeepsDirectory s t := by
  unfold execResetLine at h
  cases h
  exact keepsDirectory_of_reset rfl rfl

theorem execPowerOn_keepsDirectory {s t : State} (h : execPowerOn s = .next t) : KeepsDirectory s t := by
  unfold execPowerOn at h
  cases h
  exact keepsDirectory_of_reset rfl rfl

theorem execResetLineRelease_keepsIndex {s t : State} {select : Bool} (h : execResetLineRelease select s = .next t) :
    KeepsIndex s t := by
  unfold execResetLineRelease at h
  cases h
  split <;> exact .of_same rfl rfl

/-! ## The image port, storage and the image wait -/

theorem execImageByteTaken_keepsIndex {s t : State} {byte : Byte} (h : execImageByteTaken byte s = .next t) :
    KeepsIndex s t := by
  unfold execImageByteTaken at h
  split at h
  · cases h
    exact .refl s
  · split at h
    · cases h
      split
      · exact keepsIndex_intake s _
      · exact .refl s
    · cases h
      exact .refl s
    · dsimp only at h
      split at h
      · cases h
        exact keepsIndex_intake s _
      · split at h
        · cases h
          exact .of_same rfl rfl
        · cases h
          exact .refl s
    · cases h
      split
      · exact keepsIndex_intake s _
      · exact .refl s

theorem execImageHeader_keepsIndex {s t : State} {byte : Byte} (h : execImageHeader byte s = .next t) :
    KeepsIndex s t := by
  unfold execImageHeader at h
  split at h <;> cases h
  · split
    · exact keepsIndex_judgeHeader s _
    · exact .refl s
  all_goals exact .refl s

theorem execImageEnd_keepsIndex {s t : State} {byte : Byte} (h : execImageEnd byte s = .next t) : KeepsIndex s t := by
  unfold execImageEnd at h
  split at h
  · dsimp only at h
    split at h <;> cases h
    · exact (keepsIndex_conclude _ _).after ((keepsIndex_endTransfer _ _ _).after (.of_same rfl rfl))
    · exact .refl s
  all_goals
    cases h
    exact .refl s

theorem execDiscardingEnd_keepsIndex {s t : State} {byte : Byte} (h : execDiscardingEnd byte s = .next t) :
    KeepsIndex s t := by
  unfold execDiscardingEnd at h
  split at h <;> cases h
  · split
    · exact keepsIndex_intake s _
    · exact .refl s
  all_goals exact .refl s

theorem execStorageUpset_keepsIndex {s t : State} {buffer row group bit : Nat}
    (h : execStorageUpset buffer row group bit s = .next t) : KeepsIndex s t := by
  unfold execStorageUpset at h
  split at h <;> cases h
  exact keepsIndex_memory s _

theorem execImageWaitExpiry_keepsIndex {s t : State} {n : Nat} (h : execImageWaitExpiry n s = .next t) :
    KeepsIndex s t := by
  unfold execImageWaitExpiry at h
  split at h
  · cases h
  · split at h <;> cases h
    · exact (keepsIndex_conclude _ _).after (keepsIndex_expireImageWait s _)
    · exact .refl s

/-! ## The gate and the lamp -/

theorem keepsIndex_grant (s : State) (l : LaneId) (c : CtxId) (rest : List CtxId) (a : Arbiter) :
    KeepsIndex s (s.grant l c rest a) := by
  have hqueue : KeepsIndex s ((s.setQueue l rest).modifyFiche c fun f => { f with state := .exposing, cellsDone := 0 }) :=
    (keepsIndex_modifyFiche _ c (by exact fun _ _ h => h)).after (keepsIndex_setQueue s l rest)
  exact hqueue.trans (.of_same rfl rfl)

theorem execGrantDecision_keepsIndex {s t : State} (h : execGrantDecision s = .next t) : KeepsIndex s t := by
  unfold execGrantDecision at h
  split at h
  · cases h
    exact .refl s
  · dsimp only at h
    split at h
    · cases h
      exact .refl s
    · split at h
      · cases h
        exact .refl s
      · cases h
        exact (keepsIndex_conclude _ _).after (keepsIndex_grant s _ _ _ _)

theorem execAdvanceDone_keepsIndex {s t : State} (h : execAdvanceDone s = .next t) : KeepsIndex s t := by
  unfold execAdvanceDone at h
  split at h
  · split at h
    next f hf =>
      cases h
      refine (keepsIndex_enterGate _ _ _).after ?_
      split
      · exact keepsIndex_setFiche hf fun _ h => h
      · exact .refl s
    next =>
      cases h
      exact .refl s
  all_goals
    cases h
    exact .refl s

theorem execTitleDone_keepsIndex {s t : State} (h : execTitleDone s = .next t) : KeepsIndex s t := by
  unfold execTitleDone at h
  split at h <;> cases h
  · exact keepsIndex_reachFrom s _ _
  all_goals exact .refl s

theorem keepsIndex_cellIsDone (s : State) (c : CtxId) : KeepsIndex s (s.cellIsDone c) :=
  keepsIndex_modifyFiche s c fun _ _ h => h

theorem execCellDone_keepsIndex {s t : State} (h : execCellDone s = .next t) : KeepsIndex s t := by
  unfold execCellDone at h
  split at h <;> cases h
  · exact (keepsIndex_reachFrom _ _ _).after (keepsIndex_cellIsDone s _)
  all_goals exact .refl s

theorem execIndexCellDone_keepsIndex {s t : State} (h : execIndexCellDone s = .next t) : KeepsIndex s t := by
  unfold execIndexCellDone at h
  split at h
  · dsimp only at h
    split at h <;> cases h
    · split <;> exact (keepsIndex_enterGate _ _ _).after (keepsIndex_cellIsDone s _)
    · exact .refl s
  all_goals
    cases h
    exact .refl s

theorem execCutCompletion_keepsIndex {s t : State} (h : execCutCompletion s = .next t) : KeepsIndex s t := by
  unfold execCutCompletion at h
  split at h
  · split at h
    next f hf =>
      cases h
      exact (keepsIndex_conclude _ _).after ((keepsIndex_stallTest _).after ((keepsIndex_gate _ _).after
        ((keepsIndex_settleFences _ _ _).after ((keepsIndex_setLaneFlag _ _ _).after
          (keepsIndex_setFiche hf fun _ h => h)))))
    next =>
      cases h
      exact .refl s
  all_goals
    cases h
    exact .refl s

theorem execSpoilCompletion_keepsIndex {s t : State} (h : execSpoilCompletion s = .next t) : KeepsIndex s t := by
  unfold execSpoilCompletion at h
  split at h <;> cases h
  · exact (keepsIndex_conclude _ _).after (keepsIndex_gate s _)
  all_goals exact .refl s

theorem execLampStable_keepsIndex {s t : State} (h : execLampStable s = .next t) : KeepsIndex s t := by
  unfold execLampStable at h
  cases h
  split
  · exact .refl s
  · exact keepsIndex_gate s _

theorem execLampFault_keepsIndex {s t : State} (h : execLampFault s = .next t) : KeepsIndex s t := by
  unfold execLampFault at h
  split at h
  · cases h
    exact .refl s
  · split at h
    · cases h
      exact .refl s
    · cases h
      exact keepsIndex_setFlag s _
    all_goals
      split at h <;> cases h
      · exact (keepsIndex_conclude _ _).after ((keepsIndex_spoilExposure _ _).after (keepsIndex_lampFails s))
      · exact keepsIndex_lampFails s

theorem execJam_keepsIndex {s t : State} (h : execJam s = .next t) : KeepsIndex s t := by
  unfold execJam at h
  cases h
  split
  · exact .refl s
  · exact (keepsIndex_conclude _ _).after (keepsIndex_stopTransport s)

theorem execDoorOpen_keepsIndex {s t : State} (h : execDoorOpen s = .next t) : KeepsIndex s t := by
  unfold execDoorOpen at h
  split at h <;> cases h
  · exact .refl s
  · exact (keepsIndex_conclude _ _).after ((keepsIndex_gate _ _).after (keepsIndex_stopTransport s))

theorem execWarmUpExpiry_keepsIndex {s t : State} (h : execWarmUpExpiry s = .next t) : KeepsIndex s t := by
  unfold execWarmUpExpiry at h
  cases h
  split
  · exact keepsIndex_lampFails s
  · exact .refl s

theorem execStandbyExpiry_keepsIndex {s t : State} (h : execStandbyExpiry s = .next t) : KeepsIndex s t := by
  unfold execStandbyExpiry at h
  cases h
  split
  · exact (keepsIndex_conclude _ _).after (keepsIndex_gate s _)
  · exact .refl s

/-! ## The step -/

theorem exec_keepsDirectory {s t : State} {c : Instr} (h : exec c s = .next t) : KeepsDirectory s t := by
  cases c with
  | defineLane => exact execute_keepsIndex (keepsIndex_defineLane · s) h
  | mapClass => exact execute_keepsIndex (keepsIndex_mapClass · s) h
  | lookup => exact execute_keepsIndex (keepsIndex_lookup · s) h
  | findNext => exact execute_keepsIndex (keepsIndex_findNext · s) h
  | amend => exact execute_keepsDirectory (keepsDirectory_amend · s) h
  | withdraw => exact execute_keepsDirectory (keepsDirectory_withdrawRequest · s) h
  | purge => exact execute_keepsDirectory (keepsDirectory_purge · s) h
  | place => exact execute_keepsDirectory (keepsDirectory_place · s) h
  | openFiche => exact execute_keepsIndex (keepsIndex_openRequest · s) h
  | readFiche => exact execute_keepsIndex (keepsIndex_readFiche · s) h
  | close => exact execute_keepsIndex (keepsIndex_close · s) h
  | fence => exact execute_keepsIndex (keepsIndex_fence · s) h
  | requeue => exact execute_keepsIndex (keepsIndex_requeue · s) h
  | release => exact execute_keepsDirectory (keepsDirectory_releaseRequest · s) h
  | loadArbitration => exact execute_keepsIndex (keepsIndex_loadArbitration · s) h
  | loadCurve => exact execute_keepsIndex (keepsIndex_loadCurve · s) h
  | setFilm => exact execute_keepsIndex (keepsIndex_setFilm · s) h
  | setStandby => exact execute_keepsIndex (keepsIndex_setStandby · s) h
  | lampOn => exact execute_keepsIndex (keepsIndex_lampOn · s) h
  | lampOff => exact execute_keepsIndex (keepsIndex_lampOff · s) h
  | lampClear => exact execute_keepsIndex (keepsIndex_lampClear · s) h
  | readStatus => exact execute_keepsIndex (fun _ => .refl s) h
  | readAttention => exact execute_keepsIndex (keepsIndex_readAttention · s) h
  | setAttentionMask => exact execute_keepsIndex (keepsIndex_setAttentionMask · s) h
  | readCounters => exact execute_keepsIndex (keepsIndex_readCounters · s) h
  | reset => exact execute_keepsIndex (keepsIndex_softReset · s) h
  | unknownRequest => exact execute_keepsIndex (fun _ => .refl s) h
  | frameArrival strobed => exact (execFrameArrival_keepsIndex h).keepsDirectory
  | sendCompletion => exact (execSendCompletion_keepsIndex h).keepsDirectory
  | resetLine => exact execResetLine_keepsDirectory h
  | resetLineRelease select => exact (execResetLineRelease_keepsIndex h).keepsDirectory
  | powerOn => exact execPowerOn_keepsDirectory h
  | imageHeader byte => exact (execImageHeader_keepsIndex h).keepsDirectory
  | imageEnd byte => exact (execImageEnd_keepsIndex h).keepsDirectory
  | discardingEnd byte => exact (execDiscardingEnd_keepsIndex (byte := byte) h).keepsDirectory
  | imageAbort =>
    cases h
    exact (KeepsIndex.of_same rfl rfl).keepsDirectory
  | imageWaitExpiry n => exact (execImageWaitExpiry_keepsIndex h).keepsDirectory
  | grantDecision => exact (execGrantDecision_keepsIndex h).keepsDirectory
  | advanceDone => exact (execAdvanceDone_keepsIndex h).keepsDirectory
  | titleDone => exact (execTitleDone_keepsIndex h).keepsDirectory
  | cellDone => exact (execCellDone_keepsIndex h).keepsDirectory
  | indexCellDone => exact (execIndexCellDone_keepsIndex h).keepsDirectory
  | cutCompletion => exact (execCutCompletion_keepsIndex h).keepsDirectory
  | spoilCompletion => exact (execSpoilCompletion_keepsIndex h).keepsDirectory
  | lampStable => exact (execLampStable_keepsIndex h).keepsDirectory
  | lampFault => exact (execLampFault_keepsIndex h).keepsDirectory
  | jam => exact (execJam_keepsIndex h).keepsDirectory
  | doorOpen => exact (execDoorOpen_keepsIndex h).keepsDirectory
  | warmUpExpiry => exact (execWarmUpExpiry_keepsIndex h).keepsDirectory
  | standbyExpiry => exact (execStandbyExpiry_keepsIndex h).keepsDirectory
  | storageUpset buffer row group bit => exact (execStorageUpset_keepsIndex h).keepsDirectory
  | imageByteTaken byte => exact (execImageByteTaken_keepsIndex h).keepsDirectory
  | imageAbortRelease =>
    cases h
    exact (KeepsIndex.of_same rfl rfl).keepsDirectory

/-- A second changes timers alone. -/
theorem keepsIndex_second (s : State) : KeepsIndex s s.second := by
  refine ⟨rfl, fun n hn c => ?_⟩
  have hmap : s.second.fiche c = (s.fiche c).map fun f => { f with timer := countDown f.timer } := by
    simp [State.fiche, State.second, Vector.get_eq_getElem]
  have hc := hn c
  rw [hmap]
  cases hf : s.fiche c with
  | none => rwa [hf] at hc
  | some f => rwa [hf] at hc

theorem step_keepsDirectory {s t : State} (h : step s = .next t) : KeepsDirectory s t := by
  unfold step at h
  split at h
  · cases h
    exact (keepsIndex_second s).keepsDirectory
  next c rest _ => exact exec_keepsDirectory (s := { s with pending := rest }) h

/-- Settles O57: every update of a step keeps the order of the directory and, with it, the index entries. -/
theorem stepKeepsDirectoryOrdered : Obligations.StepKeepsDirectoryOrdered :=
  ⟨fun _ _ hs h => (step_keepsDirectory h hs).1, fun _ _ hs hi h => (step_keepsDirectory h hs).2 hi⟩

/-! ## The invariants at reset -/

theorem reset_buffersHeldOnce : State.reset.BuffersHeldOnce := by
  have hnone : State.reset.heldBuffers = [] := rfl
  refine ⟨?_, ?_⟩ <;> rw [hnone]
  · exact .nil
  · exact fun b hb => absurd hb List.not_mem_nil

theorem reset_queuesAndGateAgree : State.reset.QueuesAndGateAgree := by
  have hqueue : ∀ l, State.reset.queue l = [] := by
    intro l
    simp [State.queue, State.reset, Composer.initial, Vector.get_eq_getElem]
  refine ⟨fun l c => ?_, fun l => ?_, fun c => ?_, fun c f hf => ?_⟩
  · simp [hqueue, fiche_reset]
  · rw [hqueue]
    exact .nil
  · have hgate : State.reset.gate.state.underExposure = none := rfl
    simp [hgate, fiche_reset]
  · rw [fiche_reset] at hf
    cases hf

theorem reset_composesOnce : State.reset.ComposesOnce := by
  intro c d f g hf
  rw [fiche_reset] at hf
  cases hf

/-- Settles O60: at reset every context is FREE and every queue and the directory are empty. -/
theorem invariantsHoldAtReset : Obligations.InvariantsHoldAtReset :=
  ⟨Memory.reset_wf, reset_fieldsInRange, reset_linkInBounds, reset_directoryOrdered, reset_indexEntriesAgree,
    reset_buffersHeldOnce, reset_queuesAndGateAgree, reset_composesOnce⟩

end Sys2Proof.Machine
end

section
/-! SUPPORT. How each context stands among the lane queues, the gate and the attempts, and what an update leaves of it
(R42, R130, R154, R176). -/
namespace Sys2Proof.Machine

/-! ## The standing of a context -/

/-- What the queues, the gate and the attempts ask of a fiche. -/
structure Stage where
  state : FicheState
  lane : LaneId
  attempts : Nat

def Fiche.stage (f : Fiche) : Stage := ⟨f.state, f.lane, f.attempts⟩

/-- A context's stage, how often each lane's queue lists it, and whether the gate exposes it. -/
structure Standing where
  stage : Option Stage
  listed : LaneId → Nat
  exposed : Bool

def State.standing (s : State) (c : CtxId) : Standing :=
  ⟨(s.fiche c).map Fiche.stage, fun l => (s.queue l).count c, s.gate.state.underExposure == some c⟩

theorem standing_exposed_iff {s : State} {c : CtxId} :
    (s.standing c).exposed = true ↔ s.gate.state.underExposure = some c := beq_iff_eq

theorem standing_stage_of_fiche {s : State} {c : CtxId} {f : Fiche} (h : s.fiche c = some f) :
    (s.standing c).stage = some f.stage := by simp [State.standing, h]

/-- The queues list the context exactly while it is QUEUED, once, the gate exposes it exactly while it is EXPOSING, and its
attempts are 3 exactly while it is FAILED (R130, R154, R176). -/
structure Standing.Agrees (v : Standing) : Prop where
  listed : ∀ l, v.listed l ≤ 1 ∧ (0 < v.listed l ↔ ∃ g, v.stage = some g ∧ g.state = .queued ∧ g.lane = l)
  exposed : v.exposed = true ↔ ∃ g, v.stage = some g ∧ g.state = .exposing
  attempts : ∀ g, v.stage = some g → g.attempts ≤ 3 ∧ (g.attempts = 3 ↔ g.state = .failed)

/-- The context is COMPOSING on this lane (R42). -/
def Standing.ComposesOn (v : Standing) (l : LaneId) : Prop := ∃ g, v.stage = some g ∧ g.state = .composing ∧ g.lane = l

def AllAgree (w : CtxId → Standing) : Prop := ∀ c, (w c).Agrees

def ComposeOnce (w : CtxId → Standing) : Prop := ∀ l c d, (w c).ComposesOn l → (w d).ComposesOn l → c = d

theorem exists_standing_stage {s : State} {c : CtxId} {p : Stage → Prop} :
    (∃ g, (s.standing c).stage = some g ∧ p g) ↔ ∃ f, s.fiche c = some f ∧ p f.stage := by
  simp only [State.standing, Option.map_eq_some_iff]
  constructor
  · rintro ⟨_, ⟨f, hf, rfl⟩, h⟩
    exact ⟨f, hf, h⟩
  · rintro ⟨f, hf, h⟩
    exact ⟨_, ⟨f, hf, rfl⟩, h⟩

theorem forall_standing_stage {s : State} {c : CtxId} {p : Stage → Prop} :
    (∀ g, (s.standing c).stage = some g → p g) ↔ ∀ f, s.fiche c = some f → p f.stage := by
  simp only [State.standing, Option.map_eq_some_iff]
  constructor
  · exact fun h f hf => h _ ⟨f, hf, rfl⟩
  · rintro h _ ⟨f, hf, rfl⟩
    exact h f hf

theorem queuesAndGateAgree_iff {s : State} : s.QueuesAndGateAgree ↔ AllAgree s.standing := by
  constructor
  · rintro ⟨hmem, hnodup, hgate, hattempts⟩ c
    refine ⟨fun l => ⟨List.nodup_iff_count_le_one.1 (hnodup l) c, ?_⟩, ?_, forall_standing_stage.2 (hattempts c)⟩
    · rw [exists_standing_stage]
      exact List.count_pos_iff.trans (hmem l c)
    · rw [exists_standing_stage, standing_exposed_iff]
      exact hgate c
  · intro h
    refine ⟨fun l c => ?_, fun l => List.nodup_iff_count_le_one.2 fun c => ((h c).listed l).1, fun c => ?_,
      fun c => forall_standing_stage.1 (h c).attempts⟩
    · have hlisted := ((h c).listed l).2
      rw [exists_standing_stage] at hlisted
      exact List.count_pos_iff.symm.trans hlisted
    · have hexposed := (h c).exposed
      rwa [exists_standing_stage, standing_exposed_iff] at hexposed

theorem composesOnce_iff {s : State} : s.ComposesOnce ↔ ComposeOnce s.standing := by
  simp only [ComposeOnce, Standing.ComposesOn, exists_standing_stage]
  constructor
  · rintro h l c d ⟨f, hf, hfs, rfl⟩ ⟨g, hg, hgs, hlane⟩
    exact h c d f g hf hg hfs hgs hlane.symm
  · intro h c d f g hf hg hfs hgs hlane
    exact h f.lane c d ⟨f, hf, hfs, rfl⟩ ⟨g, hg, hgs, hlane.symm⟩

end Sys2Proof.Machine
end

section
/-! SUPPORT. What each operation leaves of the contexts' standings: most keep them all, the others change one context's. -/
namespace Sys2Proof.Machine

/-! ## What an update keeps -/

/-- From s to t the commands wait as before and every context stands as it did. -/
structure KeepsStanding (s t : State) : Prop where
  pending : t.pending = s.pending
  standing : t.standing = s.standing

theorem KeepsStanding.refl (s : State) : KeepsStanding s s := ⟨rfl, rfl⟩

/-- Two updates, the last one first: its state is the one a goal names. -/
theorem KeepsStanding.after {s t u : State} (g : KeepsStanding t u) (h : KeepsStanding s t) : KeepsStanding s u :=
  ⟨g.pending.trans h.pending, g.standing.trans h.standing⟩

theorem KeepsStanding.of_same {s t : State} (hp : t.pending = s.pending) (hc : t.composer = s.composer)
    (hg : t.gate.state.underExposure = s.gate.state.underExposure) : KeepsStanding s t :=
  ⟨hp, by simp only [funext_iff, State.standing, State.fiche, State.queue, hc, hg, implies_true]⟩

theorem KeepsStanding.underExposure {s t : State} {c : CtxId} (h : KeepsStanding s t)
    (hc : s.gate.state.underExposure = some c) : t.gate.state.underExposure = some c := by
  rw [← standing_exposed_iff] at hc ⊢
  rwa [h.standing]

/-- From s to t the commands wait as before, context c comes to stand as v, and every other context stands as it did. -/
structure ChangesStanding (s t : State) (c : CtxId) (v : Standing) : Prop where
  pending : t.pending = s.pending
  standing : t.standing = Function.update s.standing c v

theorem ChangesStanding.self {s t : State} {c : CtxId} {v : Standing} (h : ChangesStanding s t c v) :
    t.standing c = v := by rw [h.standing, Function.update_self]

theorem ChangesStanding.of_ne {s t : State} {c d : CtxId} {v : Standing} (h : ChangesStanding s t c v) (hd : d ≠ c) :
    t.standing d = s.standing d := by rw [h.standing, Function.update_of_ne hd]

theorem KeepsStanding.afterChange {s t u : State} {c : CtxId} {v : Standing} (g : KeepsStanding t u)
    (h : ChangesStanding s t c v) : ChangesStanding s u c v :=
  ⟨g.pending.trans h.pending, g.standing.trans h.standing⟩

theorem ChangesStanding.afterKeep {s t u : State} {c : CtxId} {v : Standing} (g : ChangesStanding t u c v)
    (h : KeepsStanding s t) : ChangesStanding s u c v :=
  ⟨g.pending.trans h.pending, by rw [g.standing, h.standing]⟩

theorem ChangesStanding.after {s t u : State} {c : CtxId} {v w : Standing} (g : ChangesStanding t u c w)
    (h : ChangesStanding s t c v) : ChangesStanding s u c w :=
  ⟨g.pending.trans h.pending, by rw [g.standing, h.standing, Function.update_idem]⟩

/-! ## Contexts -/

theorem changesStanding_setContext (s : State) (c : CtxId) (x : Option Fiche) :
    ChangesStanding s (s.setContext c x) c { s.standing c with stage := x.map Fiche.stage } := by
  refine ⟨rfl, funext fun d => ?_⟩
  by_cases h : d = c
  · subst h
    rw [Function.update_self]
    simp [State.standing]
  · rw [Function.update_of_ne h]
    simp [State.standing, State.fiche_setContext_of_ne h]

theorem keepsStanding_setContext {s : State} {c : CtxId} {x : Option Fiche}
    (h : x.map Fiche.stage = (s.fiche c).map Fiche.stage) : KeepsStanding s (s.setContext c x) := by
  refine ⟨rfl, (changesStanding_setContext s c x).standing.trans ?_⟩
  rw [h]
  exact Function.update_eq_self c s.standing

/-- A fiche of an existing context with its stage kept. -/
theorem keepsStanding_setFiche {s : State} {c : CtxId} {f g : Fiche} (h : s.fiche c = some f) (hg : g.stage = f.stage) :
    KeepsStanding s (s.setContext c (some g)) :=
  keepsStanding_setContext (by rw [h, Option.map_some, Option.map_some, hg])

theorem keepsStanding_modifyFiche (s : State) (c : CtxId) {g : Fiche → Fiche} (hg : ∀ f, (g f).stage = f.stage) :
    KeepsStanding s (s.modifyFiche c g) :=
  keepsStanding_setContext (by rw [Option.map_map]; exact Option.map_congr fun f _ => hg f)

theorem keepsStanding_modifyParts {g : RecordPart → Fiche → Fiche} (hg : ∀ p f, (g p f).stage = f.stage)
    (ps : List RecordPart) : ∀ s : State, KeepsStanding s (s.modifyParts ps g) := by
  induction ps with
  | nil => exact .refl
  | cons p ps ih => exact fun s => (ih _).after (keepsStanding_modifyFiche s p.ctx (hg p))

theorem keepsStanding_modifyCell (s : State) (c : CtxId) (cell : Nat) (g : Occupied → Occupied) :
    KeepsStanding s (s.modifyCell c cell g) := keepsStanding_modifyFiche s c fun _ => rfl

/-! ## Other blocks -/

theorem keepsStanding_setNextSerial (s : State) (l : LaneId) (n : Nat) : KeepsStanding s (s.setNextSerial l n) :=
  .of_same rfl rfl rfl

theorem keepsStanding_directory (s : State) (rs : List Record) : KeepsStanding s { s with directory := rs } :=
  .of_same rfl rfl rfl

theorem keepsStanding_intake (s : State) (i : Intake) : KeepsStanding s { s with intake := i } := .of_same rfl rfl rfl

theorem keepsStanding_memory (s : State) (m : Memory) : KeepsStanding s { s with memory := m } := .of_same rfl rfl rfl

theorem keepsStanding_port (s : State) (p : Port) : KeepsStanding s { s with port := p } := .of_same rfl rfl rfl

theorem keepsStanding_setFlag (s : State) (bit : Nat) : KeepsStanding s (s.setFlag bit) := .of_same rfl rfl rfl

theorem keepsStanding_setLaneFlag (s : State) (l : LaneId) (k : LaneFlag) : KeepsStanding s (s.setLaneFlag l k) :=
  .of_same rfl rfl rfl

theorem keepsStanding_withCounters (s : State) (g : Counters → Counters) : KeepsStanding s (s.withCounters g) :=
  .of_same rfl rfl rfl

theorem keepsStanding_settleFences (s : State) (c : CtxId) (o : FenceOutcome) : KeepsStanding s (s.settleFences c o) :=
  .of_same rfl rfl rfl

theorem keepsStanding_countByte (s : State) (n : Nat) : KeepsStanding s (s.countByte n).2 := by
  unfold State.countByte
  split
  · exact .refl s
  · exact .of_same rfl rfl rfl

theorem keepsStanding_foldl {β : Type} {g : State → β → State} (hg : ∀ s x, KeepsStanding s (g s x)) (xs : List β) :
    ∀ s : State, KeepsStanding s (xs.foldl g s) := by
  induction xs with
  | nil => exact .refl
  | cons x xs ih => exact fun s => (ih _).after (hg s x)

/-! ## The gate -/

theorem keepsStanding_gate (s : State) {g : Gate} (h : g.state.underExposure = s.gate.state.underExposure) :
    KeepsStanding s { s with gate := g } := .of_same rfl rfl h

/-- The gate goes on with the context it exposes. -/
theorem keepsStanding_enterGate {s : State} {c : CtxId} {g : GateState} (hc : s.gate.state.underExposure = some c)
    (hg : g.underExposure = some c) (x : Option Step) : KeepsStanding s (s.enterGate g x) :=
  keepsStanding_gate s (hg.trans hc.symm)

/-- The gate turns from the context it exposes. -/
theorem changesStanding_leaveGate {s : State} {c : CtxId} {g : Gate} (hc : s.gate.state.underExposure = some c)
    (hg : g.state.underExposure = none) :
    ChangesStanding s { s with gate := g } c { s.standing c with exposed := false } := by
  refine ⟨rfl, funext fun d => ?_⟩
  by_cases h : d = c
  · subst h
    rw [Function.update_self]
    simp only [State.standing, hg]
    rfl
  · rw [Function.update_of_ne h]
    have hne : (some c == some d) = false := by simpa using Ne.symm h
    simp only [State.standing, hc, hg, hne]
    rfl

/-- The gate turns to a context. -/
theorem changesStanding_takeGate {s : State} {c : CtxId} {g : Gate} (hc : s.gate.state.underExposure = none)
    (hg : g.state.underExposure = some c) :
    ChangesStanding s { s with gate := g } c { s.standing c with exposed := true } := by
  refine ⟨rfl, funext fun d => ?_⟩
  by_cases h : d = c
  · subst h
    rw [Function.update_self]
    simp only [State.standing, hg, beq_self_eq_true]
    rfl
  · rw [Function.update_of_ne h]
    have hne : (some c == some d) = false := by simpa using Ne.symm h
    simp only [State.standing, hc, hg, hne]
    rfl

/-! ## The end of an event -/

theorem keepsStanding_conclude (before s : State) : KeepsStanding s (before.conclude s) := by
  obtain ⟨hpending, -, -, -, hcomposer, -⟩ := conclude_frame before s
  refine .of_same hpending hcomposer ?_
  rw [conclude_eq]
  dsimp only
  split <;> rfl

theorem keepsStanding_stallTest (s : State) : KeepsStanding s s.stallTest := by
  obtain ⟨hpending, -, -, -, hcomposer, -, hgate, -⟩ := stallTest_frame s
  exact .of_same hpending hcomposer (by rw [hgate])

/-! ## Queues -/

/-- The standing of a context that joins its lane's queue. -/
def Standing.enqueued (v : Standing) (g : Stage) : Standing :=
  { v with stage := some { g with state := .queued }, listed := fun l => v.listed l + if l = g.lane then 1 else 0 }

/-- A context joins a lane's queue, at whichever place. -/
theorem changesStanding_joinQueue {s : State} {c : CtxId} {l : LaneId} {q : List CtxId} (hq : q.Perm (c :: s.queue l)) :
    ChangesStanding s (s.setQueue l q) c
      { s.standing c with listed := fun m => (s.standing c).listed m + if m = l then 1 else 0 } := by
  have hcount : ∀ d m, ((s.setQueue l q).queue m).count d = (s.queue m).count d + if d = c ∧ m = l then 1 else 0 := by
    intro d m
    rw [State.queue_setQueue]
    split
    next h =>
      subst h
      rw [hq.count_eq, List.count_cons]
      simp [eq_comm (a := c)]
    next h => simp [h]
  refine ⟨rfl, funext fun d => ?_⟩
  by_cases h : d = c
  · subst h
    rw [Function.update_self]
    simp [State.standing, hcount]
  · rw [Function.update_of_ne h]
    simp [State.standing, hcount, h]

/-- The head of a lane's queue leaves it. -/
theorem changesStanding_leaveQueue {s : State} {c : CtxId} {l : LaneId} {rest : List CtxId} (hq : s.queue l = c :: rest) :
    ChangesStanding s (s.setQueue l rest) c
      { s.standing c with listed := fun m => (s.standing c).listed m - if m = l then 1 else 0 } := by
  have hcount : ∀ d m, ((s.setQueue l rest).queue m).count d = (s.queue m).count d - if d = c ∧ m = l then 1 else 0 := by
    intro d m
    rw [State.queue_setQueue]
    split
    next h =>
      subst h
      rw [hq, List.count_cons]
      by_cases hd : d = c <;> simp [hd, eq_comm (a := c)]
    next h => simp [h]
  refine ⟨rfl, funext fun d => ?_⟩
  by_cases h : d = c
  · subst h
    rw [Function.update_self]
    simp [State.standing, hcount]
  · rw [Function.update_of_ne h]
    simp [State.standing, hcount, h]

/-- A fiche that is set QUEUED joins the queue of its lane. -/
theorem changesStanding_enqueue {s : State} {c : CtxId} {f : Fiche} {g : Stage} {q : List CtxId}
    (hf : f.stage = { g with state := .queued }) (hq : q.Perm (c :: s.queue g.lane)) :
    ChangesStanding s ((s.setContext c (some f)).setQueue g.lane q) c ((s.standing c).enqueued g) := by
  have hset := changesStanding_setContext s c (some f)
  have hjoin := changesStanding_joinQueue (s := s.setContext c (some f)) hq
  rw [hset.self, Option.map_some, hf] at hjoin
  exact hjoin.after hset

theorem changesStanding_queueFiche {s : State} {c : CtxId} {f : Fiche} (h : s.fiche c = some f) :
    ChangesStanding s (s.queueFiche c) c ((s.standing c).enqueued f.stage) := by
  rw [queueFiche_of_fiche h]
  exact changesStanding_enqueue (g := f.stage) rfl (List.perm_append_singleton c _)

/-- A fiche queued after updates that keep the standings. -/
theorem KeepsStanding.queueFiche {s t : State} {c : CtxId} {f : Fiche} (h : KeepsStanding s t) (hf : t.fiche c = some f) :
    ChangesStanding s (t.queueFiche c) c ((s.standing c).enqueued f.stage) := by
  rw [← h.standing]
  exact (changesStanding_queueFiche hf).afterKeep h

theorem changesStanding_putBack {s : State} {c : CtxId} {f : Fiche} (h : s.fiche c = some f) :
    ChangesStanding s (s.putBack c) c ((s.standing c).enqueued f.stage) := by
  rw [putBack_of_fiche h]
  exact changesStanding_enqueue (g := f.stage) rfl (.refl _)

/-! ## The end of composition -/

/-- A fiche whose awaited pages are given up (R129). -/
def Fiche.givenUp (f : Fiche) : Fiche := { f with cells := f.cells.map (Cell.modify Occupied.giveUp) }

theorem changesStanding_expireImageWait {s : State} {c : CtxId} {f : Fiche} (h : s.fiche c = some f) :
    ChangesStanding s (s.expireImageWait c) c ((s.standing c).enqueued f.stage) := by
  simp only [State.expireImageWait, h]
  have hgiven := keepsStanding_setFiche h (g := f.givenUp) rfl
  exact KeepsStanding.queueFiche (f := f.givenUp) ((keepsStanding_withCounters _ _).after ((keepsStanding_setLaneFlag _ _ _).after hgiven))
    (State.fiche_setContext_self s c _)

/-- A closed fiche is CLOSING, or it is QUEUED at once (R126, R128, R129). -/
theorem changesStanding_closeFiche {s : State} {c : CtxId} {f : Fiche} (h : s.fiche c = some f) (k : CloseCause) :
    ChangesStanding s (s.closeFiche c k) c { s.standing c with stage := some { f.stage with state := .closing } } ∨
      ChangesStanding s (s.closeFiche c k) c ((s.standing c).enqueued f.stage) := by
  rw [closeFiche_of_fiche k h]
  have hclosing := changesStanding_setContext s c (some { f with
    state := .closing, cause := some k, timer := some f.imageWait })
  have hfiche := State.fiche_setContext_self s c (some { f with
    state := .closing, cause := some k, timer := some f.imageWait })
  dsimp only
  split
  · have hqueued := changesStanding_queueFiche hfiche
    rw [hclosing.self] at hqueued
    exact .inr (hqueued.after hclosing)
  · split
    · have hqueued := changesStanding_expireImageWait hfiche
      rw [hclosing.self] at hqueued
      exact .inr (hqueued.after hclosing)
    · exact .inl hclosing

theorem changesStanding_freeEmptyFiche {s : State} {c : CtxId} {f : Fiche} (h : s.fiche c = some f) :
    ChangesStanding s (s.freeEmptyFiche c) c { s.standing c with stage := none } := by
  simp only [State.freeEmptyFiche, h]
  exact (keepsStanding_setNextSerial _ _ _).afterChange (changesStanding_setContext s c none)

/-! ## Opening a fiche and placing a part -/

theorem changesStanding_openFiche (s : State) (c : CtxId) (l : LaneId) (d : LaneDef)
    (titles : Option (List TitleLine × Nat)) : ChangesStanding s (s.openFiche c l d titles) c
      { s.standing c with stage := some ⟨.composing, l, 0⟩ } :=
  (keepsStanding_setNextSerial _ _ _).afterChange (changesStanding_setContext s c _)

theorem keepsStanding_placePart (s : State) (key : Key) (span : Span) (p : RecordPart) :
    KeepsStanding s (s.placePart key span p) := keepsStanding_modifyFiche s _ fun _ => rfl

theorem changesStanding_placeOnNew (s : State) (c : CtxId) (l : LaneId) (d : LaneDef) (key : Key) (span : Span)
    (q n : Nat) : ChangesStanding s (s.placeOnNew c l d key span q n).1 c
      { s.standing c with stage := some ⟨.composing, l, 0⟩ } :=
  (keepsStanding_placePart _ _ _ _).afterChange (changesStanding_openFiche s c l d none)

/-! ## The directory -/

theorem keepsStanding_withdrawRecord (s : State) (r : Record) : KeepsStanding s (s.withdrawRecord r) :=
  (keepsStanding_directory _ _).after (keepsStanding_modifyParts (g := Fiche.withdrawPart r.span) (fun _ _ => rfl) _ s)

theorem keepsStanding_rekey (s : State) (r : Record) (new : Key) : KeepsStanding s (s.rekey r new) := by
  rw [rekey_eq]
  exact (keepsStanding_directory _ _).after (keepsStanding_modifyParts (by exact fun _ _ => rfl) _ s)

theorem keepsStanding_updateRecord (s : State) (key : Key) (g : Record → Record) :
    KeepsStanding s (s.updateRecord key g) := keepsStanding_directory s _

theorem keepsStanding_applyPageCount {s t : State} {r r' : Record} {count : Option Nat}
    (h : s.applyPageCount r count = some (t, r')) : KeepsStanding s t := by
  unfold State.applyPageCount at h
  split at h
  · split at h
    · cases h
      exact .refl s
    · obtain ⟨f, hf, h⟩ := Option.bind_eq_some_iff.1 h
      obtain ⟨⟨cells, first⟩, -, h⟩ := Option.map_eq_some_iff.1 h
      cases h
      exact (keepsStanding_updateRecord _ _ _).after (keepsStanding_setFiche hf rfl)
  · cases h
    exact .refl s

/-! ## Reaching a cell -/

theorem keepsStanding_readBuffer (s : State) (c : CtxId) (f : Format) (buffer : Nat) :
    KeepsStanding s (s.readBuffer c f buffer).2 := by
  unfold State.readBuffer
  dsimp only
  exact (keepsStanding_withCounters _ _).after ((keepsStanding_modifyFiche _ c (by exact fun _ => rfl)).after
    (keepsStanding_memory s _))

theorem keepsStanding_saturateCell (s : State) (c : CtxId) (cell : Nat) : KeepsStanding s (s.saturateCell c cell) := by
  unfold State.saturateCell
  exact (keepsStanding_withCounters _ _).after ((keepsStanding_modifyFiche _ c (by exact fun _ => rfl)).after
    (keepsStanding_modifyCell s c cell _))

theorem keepsStanding_showCell (s : State) (c : CtxId) (f : Fiche) (cell : Nat) (o : Occupied) :
    KeepsStanding s (s.showCell c f cell o).2 := by
  unfold State.showCell
  dsimp only
  split
  next b _ _ =>
    have hread := keepsStanding_readBuffer s c ((s.memory.extent b).getD f.format) b
    have hshown : ∀ t : State, KeepsStanding t (if pageClamps (s.driveSettings f) ((s.memory.extent b).getD f.format)
        (s.memory.content ((s.memory.extent b).getD f.format) b) then t.saturateCell c cell else t) := by
      intro t
      split
      · exact keepsStanding_saturateCell t c cell
      · exact .refl t
    split
    next t ht =>
      rw [ht] at hread
      exact (keepsStanding_modifyCell _ _ _ _).after ((keepsStanding_setLaneFlag _ _ _).after hread)
    all_goals
      next t ht =>
        rw [ht] at hread
        exact (hshown t).after hread
  next b _ _ =>
    have hread := keepsStanding_readBuffer s c ((s.memory.extent b).getD f.format) b
    split
    next t ht =>
      rw [ht] at hread
      exact (keepsStanding_setLaneFlag _ _ _).after hread
    all_goals
      next t ht => rwa [ht] at hread
  all_goals exact .refl s

theorem keepsStanding_finishPages {s : State} {c : CtxId} (hc : s.gate.state.underExposure = some c) :
    KeepsStanding s (s.finishPages c) := by
  unfold State.finishPages
  split
  · split <;> exact keepsStanding_enterGate hc rfl _
  · exact .refl s

theorem keepsStanding_reachFrom {s : State} {c : CtxId} (hc : s.gate.state.underExposure = some c) (start : Nat) :
    KeepsStanding s (s.reachFrom c start) := by
  unfold State.reachFrom
  split
  · split
    · have hshown := keepsStanding_showCell s c
      exact (keepsStanding_enterGate ((hshown _ _ _).underExposure hc) rfl _).after (hshown _ _ _)
    · exact keepsStanding_finishPages hc
  · exact .refl s

/-! ## Image intake -/

theorem keepsStanding_reject (s : State) (why : Rejection) : KeepsStanding s (s.reject why) := by
  cases why <;> exact .of_same rfl rfl rfl

theorem keepsStanding_discard (s : State) (h : Header) (why : Rejection) : KeepsStanding s (s.discard h why) :=
  (keepsStanding_intake _ _).after (keepsStanding_reject s why)

theorem keepsStanding_judgeHeader (s : State) (h : Header) : KeepsStanding s (s.judgeHeader h) := by
  unfold State.judgeHeader
  split
  · exact keepsStanding_discard s h _
  · split
    · exact keepsStanding_discard s h _
    · dsimp only
      split <;> exact .of_same rfl rfl rfl

end Sys2Proof.Machine
end

section
/-! SUPPORT. Which changes of a standing keep queues, gate and attempts agreeing, and one COMPOSING context a lane. -/
namespace Sys2Proof.Machine

/-! ## Standings that agree -/

namespace Standing

variable {v : Standing} {g : Stage}

theorem Agrees.listed_eq_zero (h : v.Agrees) (hv : ∀ g, v.stage = some g → g.state ≠ .queued) (l : LaneId) :
    v.listed l = 0 := by
  by_contra hne
  obtain ⟨g, hg, hqueued, -⟩ := (h.listed l).2.1 (Nat.pos_of_ne_zero hne)
  exact hv g hg hqueued

theorem Agrees.exposed_eq_false (h : v.Agrees) (hv : ∀ g, v.stage = some g → g.state ≠ .exposing) : v.exposed = false := by
  by_contra hne
  obtain ⟨g, hg, hexposing⟩ := h.exposed.1 (Bool.eq_true_of_not_eq_false hne)
  exact hv g hg hexposing

/-- The context under exposure holds a fiche, is in no queue, and was interrupted less than three times. -/
theorem Agrees.exposing (h : v.Agrees) (hv : v.exposed = true) (hg : v.stage = some g) :
    g.state = .exposing ∧ (∀ l, v.listed l = 0) ∧ g.attempts < 3 := by
  obtain ⟨g', hg', hexposing⟩ := h.exposed.1 hv
  rw [hg, Option.some.injEq] at hg'
  subst hg'
  refine ⟨hexposing, h.listed_eq_zero fun g' hg' => ?_, ?_⟩
  · rw [hg, Option.some.injEq] at hg'
    rw [← hg', hexposing]
    decide
  · obtain ⟨hle, hfailed⟩ := h.attempts g hg
    have hne : g.attempts ≠ 3 := fun h3 => by
      rw [hfailed.1 h3] at hexposing
      cases hexposing
    omega

/-- A fiche that is in no queue and not at the gate agrees once it is QUEUED. -/
theorem agrees_enqueued (hlisted : ∀ l, v.listed l = 0) (hexposed : v.exposed = false) (hattempts : g.attempts < 3) :
    (v.enqueued g).Agrees := by
  refine ⟨fun l => ?_, ?_, ?_⟩
  · simp only [enqueued, hlisted, Option.some.injEq, exists_eq_left', true_and, eq_comm (a := l)]
    split <;> simp [*]
  · simp [enqueued, hexposed]
  · simp only [enqueued, Option.some.injEq, forall_eq', reduceCtorEq, iff_false]
    omega

/-- A context that is in no queue and not at the gate agrees in every state but QUEUED and EXPOSING. -/
theorem agrees_apart (hlisted : ∀ l, v.listed l = 0) (hexposed : v.exposed = false)
    (hstage : ∀ g, v.stage = some g → g.state ≠ .queued ∧ g.state ≠ .exposing ∧ g.attempts ≤ 3 ∧
      (g.attempts = 3 ↔ g.state = .failed)) : v.Agrees := by
  refine ⟨fun l => ⟨by simp [hlisted], ?_⟩, ?_, fun g hg => (hstage g hg).2.2⟩
  · rw [hlisted]
    exact iff_of_false (lt_irrefl 0) fun ⟨g, hg, hqueued, _⟩ => (hstage g hg).1 hqueued
  · rw [hexposed]
    exact iff_of_false Bool.false_ne_true fun ⟨g, hg, hexposing⟩ => (hstage g hg).2.1 hexposing

/-- The standing of a context that leaves the queue of lane l for the gate. -/
def granted (v : Standing) (l : LaneId) : Standing where
  stage := v.stage.map fun g => { g with state := .exposing }
  listed m := v.listed m - if m = l then 1 else 0
  exposed := true

/-- A context that a queue lists agrees once it is granted: it was QUEUED, on that lane alone. -/
theorem Agrees.granted {l : LaneId} (h : v.Agrees) (hl : 0 < v.listed l) : (v.granted l).Agrees := by
  obtain ⟨g, hg, hqueued, hlane⟩ := (h.listed l).2.1 hl
  obtain ⟨hle, hthree⟩ := h.attempts g hg
  have hzero : ∀ m, (v.granted l).listed m = 0 := by
    intro m
    obtain ⟨hone, hin⟩ := h.listed m
    show v.listed m - (if m = l then 1 else 0) = 0
    split
    next => omega
    next hm =>
      have hnot : ¬0 < v.listed m := fun hpos => by
        obtain ⟨g', hg', -, hlane'⟩ := hin.1 hpos
        rw [hg, Option.some.injEq] at hg'
        exact hm (by rw [← hlane', ← hg', hlane])
      omega
  refine ⟨fun m => ?_, ?_, ?_⟩
  · rw [hzero]
    simp [Standing.granted, hg]
  · simp [Standing.granted, hg]
  · simp only [Standing.granted, hg, Option.map_some, Option.some.injEq, forall_eq', reduceCtorEq, iff_false]
    refine ⟨hle, fun h3 => ?_⟩
    rw [hthree.1 h3] at hqueued
    cases hqueued

theorem composesOn_some_iff {l : LaneId} (h : v.stage = some g) : v.ComposesOn l ↔ g.state = .composing ∧ g.lane = l := by
  simp [ComposesOn, h]

theorem not_composesOn {l : LaneId} (h : ∀ g, v.stage = some g → g.state ≠ .composing) : ¬v.ComposesOn l :=
  fun ⟨g, hg, hcomposing, _⟩ => h g hg hcomposing

theorem not_composesOn_enqueued (v : Standing) (g : Stage) (l : LaneId) : ¬(v.enqueued g).ComposesOn l :=
  not_composesOn fun g' hg' => by
    cases hg'
    nofun

end Standing

/-! ## What a step keeps -/

/-- From s to t the commands wait as before, the standings agree still, and a lane composes once still. -/
structure KeepsAgreement (s t : State) : Prop where
  pending : t.pending = s.pending
  agree : AllAgree s.standing → AllAgree t.standing
  compose : ComposeOnce s.standing → ComposeOnce t.standing

theorem KeepsStanding.keepsAgreement {s t : State} (h : KeepsStanding s t) : KeepsAgreement s t :=
  ⟨h.pending, by rw [h.standing]; exact id, by rw [h.standing]; exact id⟩

theorem KeepsAgreement.refl (s : State) : KeepsAgreement s s := (KeepsStanding.refl s).keepsAgreement

/-- Two updates, the last one first: its state is the one a goal names. -/
theorem KeepsAgreement.after {s t u : State} (g : KeepsAgreement t u) (h : KeepsAgreement s t) : KeepsAgreement s u :=
  ⟨g.pending.trans h.pending, g.agree ∘ h.agree, g.compose ∘ h.compose⟩

theorem KeepsStanding.afterAgreement {s t u : State} (g : KeepsStanding t u) (h : KeepsAgreement s t) :
    KeepsAgreement s u := g.keepsAgreement.after h

/-- One context comes to stand in agreement, and composes on no lane that it did not compose on. -/
theorem ChangesStanding.keepsAgreement {s t : State} {c : CtxId} {v : Standing} (h : ChangesStanding s t c v)
    (hagrees : (s.standing c).Agrees → v.Agrees) (hcomposes : ∀ l, v.ComposesOn l → (s.standing c).ComposesOn l) :
    KeepsAgreement s t := by
  refine ⟨h.pending, fun hs d => ?_, fun hs l d e hd he => hs l d e ?_ ?_⟩
  · by_cases hd : d = c
    · rw [hd, h.self]
      exact hagrees (hs c)
    · rw [h.of_ne hd]
      exact hs d
  · by_cases hdc : d = c
    · rw [hdc, h.self] at hd
      rw [hdc]
      exact hcomposes l hd
    · rwa [h.of_ne hdc] at hd
  · by_cases hec : e = c
    · rw [hec, h.self] at he
      rw [hec]
      exact hcomposes l he
    · rwa [h.of_ne hec] at he

/-! ## Queues and interruptions -/

/-- A fiche that is neither queued nor at the gate nor FAILED is queued. -/
theorem ChangesStanding.enqueues {s t : State} {c : CtxId} {f : Fiche}
    (h : ChangesStanding s t c ((s.standing c).enqueued f.stage)) (hf : s.fiche c = some f)
    (hq : f.state ≠ .queued) (he : f.state ≠ .exposing) (hfailed : f.state ≠ .failed) : KeepsAgreement s t := by
  refine h.keepsAgreement (fun hs => ?_) fun l hl => absurd hl (Standing.not_composesOn_enqueued _ _ l)
  have hstage := standing_stage_of_fiche hf
  refine Standing.agrees_enqueued (hs.listed_eq_zero ?_) (hs.exposed_eq_false ?_) ?_
  · rw [hstage]
    rintro g ⟨⟩
    exact hq
  · rw [hstage]
    rintro g ⟨⟩
    exact he
  · obtain ⟨hle, hthree⟩ := hs.attempts f.stage hstage
    exact lt_of_le_of_ne hle fun h3 => hfailed (hthree.1 h3)

theorem keepsAgreement_expireImageWait {s : State} {c : CtxId} {f : Fiche} (hf : s.fiche c = some f)
    (hclosing : f.state = .closing) : KeepsAgreement s (s.expireImageWait c) := by
  refine (changesStanding_expireImageWait hf).enqueues hf ?_ ?_ ?_ <;> rw [hclosing] <;> decide

theorem keepsAgreement_completeIfDone (s : State) (c : CtxId) : KeepsAgreement s (s.completeIfDone c) := by
  unfold State.completeIfDone
  split
  next f hf =>
    split
    next hclosing => refine (changesStanding_queueFiche hf).enqueues hf ?_ ?_ ?_ <;> rw [hclosing.1] <;> decide
    next => exact .refl s
  next => exact .refl s

/-- A closed fiche was COMPOSING and composes no more. -/
theorem changesStanding_closeComposing {s : State} {c : CtxId} {f : Fiche} (hf : s.fiche c = some f)
    (hcomposing : f.state = .composing) (k : CloseCause) : ∃ v, ChangesStanding s (s.closeFiche c k) c v ∧
      ((s.standing c).Agrees → v.Agrees) ∧ ∀ l, ¬v.ComposesOn l := by
  have hstage := standing_stage_of_fiche hf
  have hother : ∀ i : FicheState, i ≠ .composing → ∀ g, (s.standing c).stage = some g → g.state ≠ i := by
    rw [hstage]
    rintro i hi g ⟨⟩ h
    exact hi (h.symm.trans hcomposing)
  have hattempts : (s.standing c).Agrees → f.attempts < 3 := by
    intro hs
    obtain ⟨hle, hthree⟩ := hs.attempts f.stage hstage
    exact lt_of_le_of_ne hle fun h3 => hother .failed (by decide) f.stage hstage (hthree.1 h3)
  rcases changesStanding_closeFiche hf k with h | h
  · refine ⟨_, h, fun hs => Standing.agrees_apart (hs.listed_eq_zero (hother _ (by decide)))
      (hs.exposed_eq_false (hother _ (by decide))) ?_, fun l => Standing.not_composesOn ?_⟩
    · rintro g ⟨⟩
      have := hattempts hs
      refine ⟨nofun, nofun, this.le, ?_⟩
      simp only [reduceCtorEq, iff_false]
      exact this.ne
    · rintro g ⟨⟩
      nofun
  · exact ⟨_, h, fun hs => Standing.agrees_enqueued (hs.listed_eq_zero (hother _ (by decide)))
      (hs.exposed_eq_false (hother _ (by decide))) (hattempts hs), Standing.not_composesOn_enqueued _ _⟩

theorem keepsAgreement_closeFiche {s : State} {c : CtxId} {f : Fiche} (hf : s.fiche c = some f)
    (hcomposing : f.state = .composing) (k : CloseCause) : KeepsAgreement s (s.closeFiche c k) := by
  obtain ⟨v, h, hagrees, hcomposes⟩ := changesStanding_closeComposing hf hcomposing k
  exact h.keepsAgreement hagrees fun l hl => absurd hl (hcomposes l)

/-- A context that is neither queued nor at the gate is freed. -/
theorem ChangesStanding.frees {s t : State} {c : CtxId} {f : Fiche}
    (h : ChangesStanding s t c { s.standing c with stage := none }) (hf : s.fiche c = some f)
    (hq : f.state ≠ .queued) (he : f.state ≠ .exposing) : KeepsAgreement s t := by
  have hstage := standing_stage_of_fiche hf
  refine h.keepsAgreement (fun hs => Standing.agrees_apart (hs.listed_eq_zero ?_) (hs.exposed_eq_false ?_) ?_) fun l hl =>
    absurd hl (Standing.not_composesOn ?_)
  · rw [hstage]
    rintro g ⟨⟩
    exact hq
  · rw [hstage]
    rintro g ⟨⟩
    exact he
  all_goals
    rintro g ⟨⟩

theorem KeepsStanding.frees {s t : State} {c : CtxId} {f : Fiche} (h : KeepsStanding s t) (hf : s.fiche c = some f)
    (hq : f.state ≠ .queued) (he : f.state ≠ .exposing) : KeepsAgreement s (t.setContext c none) := by
  have hfreed := changesStanding_setContext t c none
  rw [h.standing] at hfreed
  exact (hfreed.afterKeep h).frees hf hq he

theorem keepsAgreement_freeEmptyFiche {s : State} {c : CtxId} {f : Fiche} (hf : s.fiche c = some f)
    (hcomposing : f.state = .composing) : KeepsAgreement s (s.freeEmptyFiche c) := by
  refine (changesStanding_freeEmptyFiche hf).frees hf ?_ ?_ <;> rw [hcomposing] <;> decide

/-! ## The context under exposure -/

/-- The gate turns from the context that an update has changed. -/
theorem ChangesStanding.leaveGate {s t : State} {c : CtxId} {v : Standing} {g : Gate} (h : ChangesStanding s t c v)
    (hv : v.exposed = true) (hg : g.state.underExposure = none) :
    ChangesStanding s { t with gate := g } c { v with exposed := false } := by
  have hexposed := h.self ▸ hv
  have hleave := changesStanding_leaveGate (standing_exposed_iff.1 hexposed) hg
  rw [h.self] at hleave
  exact hleave.after h

/-- The gate turns from a context whose fiche is put back in its queue. -/
theorem ChangesStanding.spoils {s t : State} {c : CtxId} {f : Fiche} {g : Stage} {g' : Gate}
    (h : ChangesStanding s t c ((s.standing c).enqueued g)) (hf : s.fiche c = some f)
    (hc : s.gate.state.underExposure = some c) (hattempts : f.attempts < 3 → g.attempts < 3)
    (hg : g'.state.underExposure = none) : KeepsAgreement s { t with gate := g' } := by
  have hexposed := standing_exposed_iff.2 hc
  refine (h.leaveGate hexposed hg).keepsAgreement (fun hs => ?_) fun l hl => ?_
  · obtain ⟨-, hlisted, hless⟩ := hs.exposing hexposed (standing_stage_of_fiche hf)
    exact Standing.agrees_enqueued (v := { s.standing c with exposed := false }) hlisted rfl (hattempts hless)
  · exact absurd hl (Standing.not_composesOn_enqueued { s.standing c with exposed := false } g l)

/-- The gate turns from a context whose fiche becomes EXPOSED, or FAILED at its third interruption. -/
theorem ChangesStanding.ends {s t : State} {c : CtxId} {f : Fiche} {g : Stage} {g' : Gate}
    (h : ChangesStanding s t c { s.standing c with stage := some g }) (hf : s.fiche c = some f)
    (hc : s.gate.state.underExposure = some c)
    (hend : f.attempts < 3 → (g.state = .exposed ∧ g.attempts < 3) ∨ (g.state = .failed ∧ g.attempts = 3))
    (hcomposing : g.state ≠ .composing)
    (hg : g'.state.underExposure = none) : KeepsAgreement s { t with gate := g' } := by
  have hexposed := standing_exposed_iff.2 hc
  refine (h.leaveGate hexposed hg).keepsAgreement (fun hs => ?_) fun l hl => ?_
  · obtain ⟨-, hlisted, hless⟩ := hs.exposing hexposed (standing_stage_of_fiche hf)
    refine Standing.agrees_apart hlisted rfl ?_
    rintro g ⟨⟩
    rcases hend hless with ⟨hstate, hattempts⟩ | ⟨hstate, hattempts⟩
    · simp only [hstate, reduceCtorEq, iff_false, ne_eq, not_false_eq_true, true_and]
      omega
    · simp [hstate, hattempts]
  · refine absurd hl (Standing.not_composesOn ?_)
    rintro g ⟨⟩
    exact hcomposing

/-- The gate turns from a FREE context, which it exposes in no run from reset (log entry 19). -/
theorem keepsAgreement_leaveFree {s : State} {c : CtxId} {g : Gate} (hf : s.fiche c = none)
    (hc : s.gate.state.underExposure = some c) (hg : g.state.underExposure = none) :
    KeepsAgreement s { s with gate := g } := by
  refine (changesStanding_leaveGate hc hg).keepsAgreement (fun hs => ?_) fun l hl => hl
  obtain ⟨g, hg, -⟩ := hs.exposed.1 (standing_exposed_iff.2 hc)
  simp [State.standing, hf] at hg

/-- An exposure is interrupted and the gate turns from it (R176). -/
theorem keepsAgreement_interrupt {s : State} {c : CtxId} {g : Gate} (hc : s.gate.state.underExposure = some c)
    (hg : g.state.underExposure = none) : KeepsAgreement s { s.interruptFiche c with gate := g } := by
  cases hf : s.fiche c with
  | none =>
    have hsame : s.interruptFiche c = s := by simp only [State.interruptFiche, hf]
    rw [hsame]
    exact keepsAgreement_leaveFree hf hc hg
  | some f =>
    rw [interruptFiche_of_fiche hf]
    split
    next hless =>
      rw [modifyFiche_of_fiche hf]
      have hset := changesStanding_setContext s c (some { f with attempts := f.attempts + 1 })
      have hback := changesStanding_putBack (State.fiche_setContext_self s c (some { f with attempts := f.attempts + 1 }))
      rw [hset.self] at hback
      exact ChangesStanding.spoils (hback.after hset) hf hc (fun _ => hless) hg
    next hthird =>
      have hset := changesStanding_setContext s c (some { f with
        state := .failed, attempts := f.attempts + 1, cellsDone := 0 })
      refine ChangesStanding.ends (g := ⟨.failed, f.lane, f.attempts + 1⟩) ((keepsStanding_settleFences _ _ _).afterChange
        ((keepsStanding_setLaneFlag _ _ _).afterChange hset)) hf hc (fun hless => .inr ⟨rfl, ?_⟩) nofun hg
      show f.attempts + 1 = 3
      omega

end Sys2Proof.Machine
end

section
/-! SUPPORT. Every command keeps the queue of commands, and queues, gate and attempts agreeing with the contexts (R42, R130,
R154, R176). -/
namespace Sys2Proof.Machine

/-! ## Opening a fiche and placing a document -/

/-- A FREE context opens a fiche: its standing agrees still. -/
theorem agrees_opened {s : State} {c : CtxId} (hc : s.fiche c = none) (l : LaneId) (h : (s.standing c).Agrees) :
    ({ s.standing c with stage := some ⟨.composing, l, 0⟩ } : Standing).Agrees := by
  have hnone : ∀ g, (s.standing c).stage ≠ some g := by simp [State.standing, hc]
  refine Standing.agrees_apart (h.listed_eq_zero fun g hg => absurd hg (hnone g))
    (h.exposed_eq_false fun g hg => absurd hg (hnone g)) ?_
  rintro g ⟨⟩
  simp

/-- After an update that keeps agreement, a FREE context opens a fiche of a lane that composes none. -/
theorem ChangesStanding.opens {r s t : State} {c : CtxId} {l : LaneId}
    (h : ChangesStanding s t c { s.standing c with stage := some ⟨.composing, l, 0⟩ }) (hr : KeepsAgreement r s)
    (hc : s.fiche c = none) (hl : ComposeOnce r.standing → ∀ d, ¬(s.standing d).ComposesOn l) : KeepsAgreement r t := by
  refine ⟨h.pending.trans hr.pending, fun hs d => ?_, fun hs m d e hd he => ?_⟩
  · by_cases hdc : d = c
    · rw [hdc, h.self]
      exact agrees_opened hc l (hr.agree hs c)
    · rw [h.of_ne hdc]
      exact hr.agree hs d
  · have hopened : ({ s.standing c with stage := some ⟨.composing, l, 0⟩ } : Standing).ComposesOn m → l = m := by
      simp [Standing.ComposesOn]
    by_cases hdc : d = c <;> by_cases hec : e = c
    · rw [hdc, hec]
    · rw [hdc, h.self] at hd
      rw [h.of_ne hec, ← hopened hd] at he
      exact absurd he (hl hs e)
    · rw [hec, h.self] at he
      rw [h.of_ne hdc, ← hopened he] at hd
      exact absurd hd (hl hs d)
    · rw [h.of_ne hdc] at hd
      rw [h.of_ne hec] at he
      exact hr.compose hs m d e hd he

theorem not_composesOn_of_composingContext {s : State} {l : LaneId} (h : s.composingContext l = none) (d : CtxId) :
    ¬(s.standing d).ComposesOn l := by
  rw [Standing.ComposesOn, exists_standing_stage]
  rintro ⟨f, hf, hcomposing, hlane⟩
  exact composingContext_eq_none_iff.1 h d f hf ⟨hcomposing, hlane⟩

/-- Where the lane's one COMPOSING context composes no more, the lane composes none. -/
theorem ChangesStanding.composesNone {s t : State} {x : CtxId} {l : LaneId} {v : Standing}
    (h : ChangesStanding s t x v) (hx : (s.standing x).ComposesOn l) (hv : ¬v.ComposesOn l) (hs : ComposeOnce s.standing)
    (d : CtxId) : ¬(t.standing d).ComposesOn l := by
  by_cases hd : d = x
  · rwa [hd, h.self]
  · rw [h.of_ne hd]
    exact fun hcomposes => hd (hs l d x hcomposes hx)

section
variable {s : State} {c x : CtxId} {f : Fiche} {l : LaneId} {d : LaneDef} {key : Key} {span : Span} {n : Nat} {p : Placement}

theorem keepsAgreement_placeFresh (hl : s.composingContext l = none) (h : s.placeFresh l d key span n = some p) :
    KeepsAgreement s p.state := by
  obtain ⟨c, hc, rfl⟩ := Option.map_eq_some_iff.1 h
  exact (changesStanding_placeOnNew s c l d key span 1 n).opens (.refl s) (lowestFree_eq_some_iff.1 hc).1 fun _ =>
    not_composesOn_of_composingContext hl

/-- The lane's COMPOSING fiche is closed or discarded, and a FREE context opens the next. -/
theorem keepsAgreement_placeAfter {t : State} {v : Standing} {q : Nat} (hf : s.fiche x = some f)
    (hcomposing : f.state = .composing) (hlane : f.lane = l) (h : ChangesStanding s t x v)
    (hagrees : (s.standing x).Agrees → v.Agrees) (hcomposes : ∀ l, ¬v.ComposesOn l) (hc : t.fiche c = none) :
    KeepsAgreement s (t.placeOnNew c l d key span q n).1 := by
  have hx : (s.standing x).ComposesOn l :=
    (Standing.composesOn_some_iff (standing_stage_of_fiche hf)).2 ⟨hcomposing, hlane⟩
  exact (changesStanding_placeOnNew t c l d key span q n).opens (h.keepsAgreement hagrees fun l hl =>
    absurd hl (hcomposes l)) hc fun hs => h.composesNone hx (hcomposes l) hs

theorem keepsAgreement_placeSplit {t : Nat} (hf : s.fiche x = some f) (hcomposing : f.state = .composing)
    (hlane : f.lane = l) (h : s.placeSplit x f l d key span n t = some p) : KeepsAgreement s p.state := by
  obtain ⟨c, hc, rfl⟩ := Option.map_eq_some_iff.1 h
  have hc := (lowestFree_eq_some_iff.1 hc).1
  have hne : c ≠ x := fun h => by simp [h, hf] at hc
  let tail : RecordPart := ⟨x, f.serial, tailStart f.cells (usableCells f.format f.k) span.cells, 1, t⟩
  have hplaced := keepsStanding_placePart s key span tail
  have hfiche : ∀ e, (s.placePart key span tail).fiche e = if e = x then (s.fiche x).map fun f =>
      { f with cells := occupyRun f.cells key span tail.firstCell 1 t, indexUsed := f.indexUsed + 1 } else s.fiche e :=
    fun e => State.fiche_modifyFiche s x e _
  have hx := hfiche x
  rw [if_pos rfl, hf, Option.map_some] at hx
  obtain ⟨v, hclosed, hagrees, hcomposes⟩ := changesStanding_closeComposing hx hcomposing .split
  rw [hplaced.standing] at hagrees
  refine keepsAgreement_placeAfter hf hcomposing hlane (hclosed.afterKeep hplaced) hagrees hcomposes ?_
  rw [fiche_closeFiche_of_ne hne, hfiche, if_neg hne, hc]

theorem keepsAgreement_placeAfterFull (hf : s.fiche x = some f) (hcomposing : f.state = .composing)
    (hlane : f.lane = l) (h : s.placeAfterFull x l d key span n = some p) : KeepsAgreement s p.state := by
  obtain ⟨c, hc, rfl⟩ := Option.map_eq_some_iff.1 h
  have hc := (lowestFree_eq_some_iff.1 hc).1
  have hne : c ≠ x := fun h => by simp [h, hf] at hc
  obtain ⟨v, hclosed, hagrees, hcomposes⟩ := changesStanding_closeComposing hf hcomposing .full
  exact keepsAgreement_placeAfter hf hcomposing hlane hclosed hagrees hcomposes ((fiche_closeFiche_of_ne hne .full).trans hc)

theorem keepsAgreement_placeAfterDiscard (hf : s.fiche x = some f) (hcomposing : f.state = .composing)
    (hlane : f.lane = l) (h : s.placeAfterDiscard x f l d key span n = some p) : KeepsAgreement s p.state := by
  obtain ⟨c, hc, rfl⟩ := Option.map_eq_some_iff.1 h
  have hstage := standing_stage_of_fiche hf
  refine keepsAgreement_placeAfter hf hcomposing hlane (changesStanding_freeEmptyFiche hf) (fun hs =>
    Standing.agrees_apart (hs.listed_eq_zero ?_) (hs.exposed_eq_false ?_) ?_) (fun l => Standing.not_composesOn ?_)
    (lowestFree_eq_some_iff.1 hc).1
  · rw [hstage]
    rintro g ⟨⟩ h
    exact FicheState.noConfusion (hcomposing.symm.trans h)
  · rw [hstage]
    rintro g ⟨⟩ h
    exact FicheState.noConfusion (hcomposing.symm.trans h)
  all_goals
    rintro g ⟨⟩

/-- Every way of placing a document (R51 to R56). -/
theorem keepsAgreement_choosePlace (h : s.choosePlace l d key span n = some p) : KeepsAgreement s p.state := by
  unfold State.choosePlace at h
  split at h
  next hnone =>
    refine keepsAgreement_placeFresh ?_ h
    by_contra hsome
    obtain ⟨y, hy⟩ := Option.ne_none_iff_exists'.1 hsome
    obtain ⟨g, hg, -⟩ := fiche_of_composingContext hy
    simp [hy, hg] at hnone
  next x f hxf =>
    obtain ⟨y, hy, hy'⟩ := Option.bind_eq_some_iff.1 hxf
    obtain ⟨g, hf, hgf⟩ := Option.map_eq_some_iff.1 hy'
    cases hgf
    obtain ⟨g, hg, hcomposing, hlane⟩ := fiche_of_composingContext hy
    rw [hf, Option.some.injEq] at hg
    subst hg
    dsimp only at h
    split at h
    · cases h
      exact (keepsStanding_placePart s key span _).keepsAgreement
    · split at h
      · exact keepsAgreement_placeSplit hf hcomposing hlane h
      · split at h
        · exact keepsAgreement_placeAfterFull hf hcomposing hlane h
        · exact keepsAgreement_placeAfterDiscard hf hcomposing hlane h

end

end Sys2Proof.Machine
end

section
/-! SUPPORT. The requests: each keeps the queue of commands, and queues, gate and attempts agreeing with the contexts. -/
namespace Sys2Proof.Machine

/-! ## Requests that keep every standing -/

theorem keepsStanding_defineLane (f : Frame) (s : State) : KeepsStanding s (defineLane f s).1 := by
  unfold defineLane
  split
  · exact .refl s
  next l action d _ =>
    split
    · exact .refl s
    · have hcolumn : ∀ t : State, KeepsStanding t (t.columnByte d).2 := by
        intro t
        unfold State.columnByte
        split
        · exact .refl t
        · exact .of_same rfl rfl rfl
      exact (hcolumn _).after (.of_same rfl rfl rfl)

theorem keepsStanding_mapClass (f : Frame) (s : State) : KeepsStanding s (mapClass f s).1 := by
  unfold mapClass
  split
  · split
    · exact .refl s
    · exact .of_same rfl rfl rfl
  · exact .refl s

theorem keepsStanding_lookup (f : Frame) (s : State) : KeepsStanding s (lookup f s).1 := by
  unfold lookup
  dsimp only
  split <;> exact .refl s

theorem keepsStanding_findNext (f : Frame) (s : State) : KeepsStanding s (findNext f s).1 := by
  unfold findNext
  dsimp only
  split
  · exact .refl s
  · split
    · exact .refl s
    · split <;> exact .refl s

theorem keepsStanding_amend (f : Frame) (s : State) : KeepsStanding s (amend f s).1 := by
  unfold amend
  extract_lets key changes newKey count expected tests
  split
  · exact .refl s
  · split
    · exact .refl s
    · split
      · exact .refl s
      · split
        · exact .refl s
        · split
          · exact .refl s
          · split
            · exact .refl s
            · split
              · exact .refl s
              next t r' ht =>
                refine (keepsStanding_stallTest _).after ((keepsStanding_updateRecord _ _ _).after ?_)
                split
                · exact (keepsStanding_rekey _ _ _).after (keepsStanding_applyPageCount ht)
                · exact keepsStanding_applyPageCount ht

theorem keepsStanding_withdraw (f : Frame) (s : State) : KeepsStanding s (withdraw f s).1 := by
  unfold withdraw
  dsimp only
  split
  · exact .refl s
  · split
    · exact .refl s
    · split
      · exact .refl s
      · split
        · exact .refl s
        · exact (keepsStanding_stallTest _).after (keepsStanding_withdrawRecord s _)

theorem keepsStanding_purge (f : Frame) (s : State) : KeepsStanding s (purge f s).1 := by
  unfold purge
  split
  · exact .refl s
  · exact (keepsStanding_stallTest _).after (keepsStanding_foldl keepsStanding_withdrawRecord _ s)

theorem keepsStanding_readFiche (f : Frame) (s : State) : KeepsStanding s (readFiche f s).1 := by
  unfold readFiche
  dsimp only
  split
  · exact .refl s
  · split
    · exact .refl s
    · split
      · exact .refl s
      · exact keepsStanding_countByte s _

theorem keepsStanding_fence (f : Frame) (s : State) : KeepsStanding s (fence f s).1 := by
  unfold fence
  dsimp only
  split
  · exact .refl s
  · split
    · exact .refl s
    · split
      · exact .refl s
      · exact keepsStanding_port s _

theorem keepsStanding_arbiter (s : State) (a : Arbiter) : KeepsStanding s { s with arbiter := a } := .of_same rfl rfl rfl

theorem keepsStanding_loadArbitration (f : Frame) (s : State) : KeepsStanding s (loadArbitration f s).1 := by
  unfold loadArbitration
  exact keepsStanding_arbiter s _

theorem keepsStanding_loadCurve (f : Frame) (s : State) : KeepsStanding s (loadCurve f s).1 := by
  unfold loadCurve
  split
  · exact .refl s
  · exact keepsStanding_gate s (by rfl)

/-- A film count is set at rest, and the gate stays at rest (R173). -/
theorem keepsStanding_setFilm (f : Frame) (s : State) : KeepsStanding s (setFilm f s).1 := by
  have hrest : ∀ n, (s.gate.setFilm n).state.underExposure = s.gate.state.underExposure := by
    intro n
    unfold Gate.setFilm
    dsimp only
    split
    next h =>
      rw [h.1]
      rfl
    next => rfl
  unfold setFilm
  dsimp only
  split
  · exact .refl s
  · exact (keepsStanding_conclude _ _).after (keepsStanding_gate s (hrest _))

theorem keepsStanding_setStandby (f : Frame) (s : State) : KeepsStanding s (setStandby f s).1 :=
  keepsStanding_gate s (by rfl)

theorem keepsStanding_lampOn (f : Frame) (s : State) : KeepsStanding s (lampOn f s).1 := by
  unfold lampOn
  split
  · exact .refl s
  · split
    case h_5 => exact .refl s
    all_goals exact keepsStanding_gate s (by rfl)

theorem keepsStanding_lampOff (f : Frame) (s : State) : KeepsStanding s (lampOff f s).1 := by
  unfold lampOff
  split
  · exact .refl s
  · split
    · exact .refl s
    · exact keepsStanding_gate s (by rfl)

theorem keepsStanding_lampClear (f : Frame) (s : State) : KeepsStanding s (lampClear f s).1 := by
  unfold lampClear
  split
  · exact keepsStanding_gate s (by rfl)
  all_goals exact .refl s

theorem keepsStanding_readAttention (f : Frame) (s : State) : KeepsStanding s (readAttention f s).1 := by
  unfold readAttention
  dsimp only
  split
  · exact .refl s
  · exact keepsStanding_port s _

theorem keepsStanding_setAttentionMask (f : Frame) (s : State) : KeepsStanding s (setAttentionMask f s).1 := by
  unfold setAttentionMask
  dsimp only
  split
  · exact .refl s
  · exact keepsStanding_port s _

theorem keepsStanding_readCounters (f : Frame) (s : State) : KeepsStanding s (readCounters f s).1 := by
  unfold readCounters
  split
  · exact .refl s
  · dsimp only
    split
    · exact keepsStanding_withCounters s _
    · exact .refl s

/-! ## Requests that change a context's standing -/

theorem keepsAgreement_place (f : Frame) (s : State) : KeepsAgreement s (place f s).1 := by
  unfold place
  dsimp only
  split
  · split
    · exact .refl s
    · split
      · exact .refl s
      · split
        · exact .refl s
        · split
          · exact .refl s
          · split
            · exact .refl s
            · split
              · exact .refl s
              next p hp =>
                exact (keepsStanding_conclude _ _).afterAgreement ((keepsStanding_directory _ _).afterAgreement
                  (keepsAgreement_choosePlace hp))
  · exact .refl s

theorem keepsAgreement_openFiche (f : Frame) (s : State) : KeepsAgreement s (openFiche f s).1 := by
  unfold openFiche
  split
  · split
    · exact .refl s
    · split
      · exact .refl s
      next hnone =>
        split
        · exact .refl s
        next c hc =>
          exact (changesStanding_openFiche s c _ _ _).opens (.refl s) (lowestFree_eq_some_iff.1 hc).1 fun _ =>
            not_composesOn_of_composingContext (by simpa using hnone)
  · exact .refl s

/-- CLOSE acts on a COMPOSING context only (R124). -/
theorem fiche_of_closeTarget {s : State} {l : LaneId} {named : Option CtxId} {c : CtxId}
    (h : s.closeTarget l named = .inl c) : ∃ f, s.fiche c = some f ∧ f.state = .composing := by
  unfold State.closeTarget at h
  split at h
  · split at h
    next d hd =>
      cases h
      obtain ⟨f, hf, hcomposing, -⟩ := fiche_of_composingContext hd
      exact ⟨f, hf, hcomposing⟩
    next => cases h
  · split at h
    next => cases h
    next d f hf =>
      split at h
      · cases h
      · split at h
        next hcomposing =>
          cases h
          exact ⟨f, hf, hcomposing⟩
        next => cases h

theorem keepsAgreement_close (f : Frame) (s : State) : KeepsAgreement s (close f s).1 := by
  unfold close
  split
  · split
    · exact .refl s
    next c hc =>
      obtain ⟨x, hx, hcomposing⟩ := fiche_of_closeTarget hc
      simp only [hx]
      split
      · exact keepsAgreement_freeEmptyFiche hx hcomposing
      · exact (keepsStanding_conclude _ _).afterAgreement (keepsAgreement_closeFiche hx hcomposing .host)
  · exact .refl s

/-- A FAILED fiche is queued with its attempts counted afresh (R131). -/
theorem keepsAgreement_requeue (f : Frame) (s : State) : KeepsAgreement s (requeue f s).1 := by
  unfold requeue
  split
  next c serial _ _ =>
    split
    · exact .refl s
    next x hx =>
      split
      · exact .refl s
      next hfailed =>
        have hfailed : x.state = .failed := by
          by_contra h
          exact hfailed (.inl h)
        have hother : ∀ i : FicheState, i ≠ .failed → ∀ g, (s.standing c).stage = some g → g.state ≠ i := by
          rw [standing_stage_of_fiche hx]
          rintro i hi g ⟨⟩ h
          exact hi (h.symm.trans hfailed)
        have hset := changesStanding_setContext s c (some { x with attempts := 0, cellsDone := 0 })
        have hqueued := changesStanding_queueFiche (State.fiche_setContext_self s c (some { x with
          attempts := 0, cellsDone := 0 }))
        rw [hset.self] at hqueued
        refine (keepsStanding_conclude _ _).afterAgreement ((hqueued.after hset).keepsAgreement (fun hs => ?_)
          fun l hl => absurd hl (Standing.not_composesOn_enqueued _ _ l))
        exact Standing.agrees_enqueued (hs.listed_eq_zero (hother _ (by decide)))
          (hs.exposed_eq_false (hother _ (by decide))) (by decide : 0 < 3)
  · exact .refl s

theorem keepsAgreement_release (f : Frame) (s : State) : KeepsAgreement s (release f s).1 := by
  unfold release
  split
  · dsimp only
    split
    · exact .refl s
    next x hx =>
      split
      · exact .refl s
      · split
        · exact .refl s
        next hbusy =>
          exact (keepsStanding_stallTest _).afterAgreement ((keepsStanding_directory _ _).afterAgreement
            ((keepsStanding_countByte s _).frees hx (fun h => hbusy (.inr (.inl h))) fun h => hbusy (.inr (.inr h))))
  · exact .refl s

theorem keepsAgreement_softResetGate (s : State) : KeepsAgreement s s.softResetGate := by
  unfold State.softResetGate
  split
  next c hc =>
    have hcounted : KeepsStanding s s.countSpoiled := keepsStanding_withCounters s _
    cases hf : s.fiche c with
    | none =>
      have hsame : s.countSpoiled.putBack c = s.countSpoiled := by
        have hf' : s.countSpoiled.fiche c = none := hf
        simp only [State.putBack, hf']
      rw [hsame]
      exact (keepsAgreement_leaveFree (s := s.countSpoiled) hf hc (by rfl)).after hcounted.keepsAgreement
    | some f =>
      have hback := changesStanding_putBack (s := s.countSpoiled) hf
      rw [hcounted.standing] at hback
      exact (hback.afterKeep hcounted).spoils hf hc id (by rfl)
  next => exact .refl s

theorem keepsAgreement_softReset (f : Frame) (s : State) : KeepsAgreement s (softReset f s).1 := by
  have hreset : ∀ t : State, KeepsStanding t { t.abortFences with intake := .ready [], arbiter := t.arbiter.softReset } :=
    fun t => .of_same rfl rfl rfl
  exact (keepsStanding_conclude _ _).afterAgreement ((hreset _).afterAgreement (keepsAgreement_softResetGate s))

/-! ## A request taken from the waiting list -/

/-- Taking the frame and posting its reply touch the host port alone. -/
theorem execute_keepsAgreement {s t : State} {row : RequestRow} {act : Frame → State → State × Answer}
    (hact : ∀ f, KeepsAgreement s (act f s).1) (h : s.execute row act = .next t) : KeepsAgreement s t := by
  rcases execute_cases s row act with
    he | ⟨f, rest, -, -, -, ⟨k, -, he⟩ | ⟨-, u, ha, he⟩ | ⟨-, u, k, b, ha, he⟩⟩ <;>
    rw [h] at he <;> cases he
  · exact .refl s
  · exact (keepsStanding_port s _).keepsAgreement
  all_goals
    have hu := hact f
    rw [ha] at hu
    exact (keepsStanding_port u _).afterAgreement hu

theorem execute_keepsStanding {s t : State} {row : RequestRow} {act : Frame → State → State × Answer}
    (hact : ∀ f, KeepsStanding s (act f s).1) (h : s.execute row act = .next t) : KeepsAgreement s t :=
  execute_keepsAgreement (fun f => (hact f).keepsAgreement) h

end Sys2Proof.Machine
end

section
/-! SUPPORT. Every event and the step keep the queue of commands, and queues, gate and attempts agreeing with the contexts;
every well-formed command goes on. -/
namespace Sys2Proof.Machine

/-! ## Frames, the reset line and power-on -/

theorem execFrameArrival_keepsStanding {s t : State} {strobed : List Byte} (h : execFrameArrival strobed s = .next t) :
    KeepsStanding s t := by
  unfold execFrameArrival at h
  split at h
  · cases h
    exact .refl s
  · split at h
    · cases h
      exact .of_same rfl rfl rfl
    · split at h
      · cases h
        exact .refl s
      · dsimp only at h
        split at h
        · cases h
          exact keepsStanding_port s _
        · cases h
          unfold State.refuseFrame
          split <;> exact keepsStanding_port s _

theorem execSendCompletion_keepsStanding {s t : State} (h : execSendCompletion s = .next t) : KeepsStanding s t := by
  unfold execSendCompletion at h
  cases h
  split
  · exact .refl s
  · exact keepsStanding_port s _

/-- What has the contexts, the queues and a gate as at power-on agrees, and composes nowhere. -/
theorem keepsAgreement_of_reset {s t : State} (hp : t.pending = s.pending) (hc : t.composer = State.reset.composer)
    (hg : t.gate.state.underExposure = none) : KeepsAgreement s t := by
  have hstanding : t.standing = State.reset.standing :=
    KeepsStanding.standing (s := { State.reset with pending := t.pending }) ⟨rfl, by
      simp only [funext_iff, State.standing, State.fiche, State.queue, hc, hg]
      exact fun _ => rfl⟩
  refine ⟨hp, fun _ => ?_, fun _ => ?_⟩ <;> rw [hstanding]
  · exact queuesAndGateAgree_iff.1 reset_queuesAndGateAgree
  · exact composesOnce_iff.1 reset_composesOnce

theorem execResetLine_keepsAgreement {s t : State} (h : execResetLine s = .next t) : KeepsAgreement s t := by
  unfold execResetLine at h
  cases h
  exact keepsAgreement_of_reset rfl rfl rfl

theorem execPowerOn_keepsAgreement {s t : State} (h : execPowerOn s = .next t) : KeepsAgreement s t := by
  unfold execPowerOn at h
  cases h
  exact keepsAgreement_of_reset rfl rfl rfl

theorem execResetLineRelease_keepsStanding {s t : State} {select : Bool} (h : execResetLineRelease select s = .next t) :
    KeepsStanding s t := by
  unfold execResetLineRelease at h
  cases h
  split <;> exact .of_same rfl rfl rfl

/-! ## The image port, storage and the image wait -/

theorem execImageByteTaken_keepsStanding {s t : State} {byte : Byte} (h : execImageByteTaken byte s = .next t) :
    KeepsStanding s t := by
  unfold execImageByteTaken at h
  split at h
  · cases h
    exact .refl s
  · split at h
    · cases h
      split
      · exact keepsStanding_intake s _
      · exact .refl s
    · cases h
      exact .refl s
    · dsimp only at h
      split at h
      · cases h
        exact keepsStanding_intake s _
      · split at h
        · cases h
          exact .of_same rfl rfl rfl
        · cases h
          exact .refl s
    · cases h
      split
      · exact keepsStanding_intake s _
      · exact .refl s

theorem execImageHeader_keepsStanding {s t : State} {byte : Byte} (h : execImageHeader byte s = .next t) :
    KeepsStanding s t := by
  unfold execImageHeader at h
  split at h <;> cases h
  · split
    · exact keepsStanding_judgeHeader s _
    · exact .refl s
  all_goals exact .refl s

theorem keepsAgreement_endTransfer (s : State) (m : Matched) (buffers : List Nat) :
    KeepsAgreement s (s.endTransfer m buffers) := by
  unfold State.endTransfer
  dsimp only
  split
  · exact ((keepsStanding_reject _ _).after (keepsStanding_intake s _)).keepsAgreement
  next r p f hj =>
    split
    · exact ((keepsStanding_reject _ _).after (keepsStanding_intake s _)).keepsAgreement
    · have hready := keepsStanding_intake s (.ready [])
      have hfiche : ({ s with intake := .ready [] } : State).fiche p.ctx = some f := fiche_of_judge hj
      exact (keepsAgreement_completeIfDone _ _).after ((keepsStanding_updateRecord _ _ _).afterAgreement
        ((keepsStanding_setFiche hfiche (by rfl)).after hready).keepsAgreement)

theorem execImageEnd_keepsAgreement {s t : State} {byte : Byte} (h : execImageEnd byte s = .next t) :
    KeepsAgreement s t := by
  unfold execImageEnd at h
  split at h
  · dsimp only at h
    split at h <;> cases h
    · exact (keepsStanding_conclude _ _).afterAgreement ((keepsAgreement_endTransfer _ _ _).after
        (keepsStanding_memory s _).keepsAgreement)
    · exact .refl s
  all_goals
    cases h
    exact .refl s

theorem execDiscardingEnd_keepsStanding {s t : State} {byte : Byte} (h : execDiscardingEnd byte s = .next t) :
    KeepsStanding s t := by
  unfold execDiscardingEnd at h
  split at h <;> cases h
  · split
    · exact keepsStanding_intake s _
    · exact .refl s
  all_goals exact .refl s

theorem execStorageUpset_keepsStanding {s t : State} {buffer row group bit : Nat}
    (h : execStorageUpset buffer row group bit s = .next t) : KeepsStanding s t := by
  unfold execStorageUpset at h
  split at h <;> cases h
  exact keepsStanding_memory s _

theorem execImageWaitExpiry_keepsAgreement {s t : State} {n : Nat} (h : execImageWaitExpiry n s = .next t) :
    KeepsAgreement s t := by
  unfold execImageWaitExpiry at h
  split at h
  · cases h
  · split at h <;> cases h
    next hclosing =>
      obtain ⟨f, hf, hstate⟩ := (Option.any_eq_true ..).1 hclosing
      exact (keepsStanding_conclude _ _).afterAgreement (keepsAgreement_expireImageWait hf (by simpa using hstate))
    next => exact .refl s

/-! ## The gate and the lamp -/

/-- The head of a lane's queue goes to the gate, which exposed no context (R146). -/
theorem keepsAgreement_grant {s : State} {l : LaneId} {c : CtxId} {rest : List CtxId} (a : Arbiter)
    (hq : s.queue l = c :: rest) (hg : s.gate.state.underExposure = none) :
    KeepsAgreement s (s.grant l c rest a) := by
  have hleft := changesStanding_leaveQueue hq
  let t := (s.setQueue l rest).modifyFiche c fun f => { f with state := .exposing, cellsDone := 0 }
  have ht : ChangesStanding s t c { (s.standing c).granted l with exposed := (s.standing c).exposed } := by
    have hset := changesStanding_setContext (s.setQueue l rest) c (((s.setQueue l rest).fiche c).map fun f =>
      { f with state := .exposing, cellsDone := 0 })
    have hstage : ((s.standing c).granted l).stage = ((s.fiche c).map fun f =>
      { f with state := .exposing, cellsDone := 0 }).map Fiche.stage := by
      rw [Option.map_map]
      exact Option.map_map ..
    rw [hleft.self] at hset
    simp only [Standing.granted] at hstage ⊢
    rw [hstage]
    exact hset.after hleft
  have hgate : ChangesStanding t (s.grant l c rest a) c { t.standing c with exposed := true } :=
    (changesStanding_takeGate (s := { t with arbiter := a }) hg (by rfl)).afterKeep (keepsStanding_arbiter t a)
  rw [ht.self] at hgate
  have hgranted : ChangesStanding s (s.grant l c rest a) c ((s.standing c).granted l) := hgate.after ht
  refine hgranted.keepsAgreement (fun hs => hs.granted (by simp [State.standing, hq])) fun m hm => absurd hm
    (Standing.not_composesOn fun g hg => ?_)
  obtain ⟨g', -, rfl⟩ := Option.map_eq_some_iff.1 hg
  nofun

theorem execGrantDecision_keepsAgreement {s t : State} (h : execGrantDecision s = .next t) : KeepsAgreement s t := by
  unfold execGrantDecision at h
  split at h
  · cases h
    exact .refl s
  next hdue =>
    have hidle : s.gate.state = .idle := by
      simp only [State.grantDue, not_or, Bool.not_eq_true, Bool.not_eq_false', Bool.and_eq_true, beq_iff_eq] at hdue
      exact hdue.2.1.1.1
    dsimp only at h
    split at h
    · cases h
      exact .refl s
    · split at h
      · cases h
        exact .refl s
      next hqueue =>
        cases h
        exact (keepsStanding_conclude _ _).afterAgreement (keepsAgreement_grant _ hqueue (by rw [hidle]; rfl))

theorem execAdvanceDone_keepsStanding {s t : State} (h : execAdvanceDone s = .next t) : KeepsStanding s t := by
  unfold execAdvanceDone at h
  split at h
  next c hc =>
    have hexposed : s.gate.state.underExposure = some c := by rw [hc]; rfl
    split at h
    next f hf =>
      cases h
      split
      · have hclipped := keepsStanding_setFiche hf (g := { f with titleClipped := true }) rfl
        exact (keepsStanding_enterGate (hclipped.underExposure hexposed) rfl _).after hclipped
      · exact keepsStanding_enterGate hexposed rfl _
    next =>
      cases h
      exact .refl s
  all_goals
    cases h
    exact .refl s

theorem execTitleDone_keepsStanding {s t : State} (h : execTitleDone s = .next t) : KeepsStanding s t := by
  unfold execTitleDone at h
  split at h <;> cases h
  next c hc => exact keepsStanding_reachFrom (by rw [hc]; rfl) _
  all_goals exact .refl s

theorem keepsStanding_cellIsDone (s : State) (c : CtxId) : KeepsStanding s (s.cellIsDone c) :=
  keepsStanding_modifyFiche s c fun _ => rfl

theorem execCellDone_keepsStanding {s t : State} (h : execCellDone s = .next t) : KeepsStanding s t := by
  unfold execCellDone at h
  split at h <;> cases h
  next c n hc =>
    have hdone := keepsStanding_cellIsDone s c
    exact (keepsStanding_reachFrom (hdone.underExposure (by rw [hc]; rfl)) _).after hdone
  all_goals exact .refl s

theorem execIndexCellDone_keepsStanding {s t : State} (h : execIndexCellDone s = .next t) : KeepsStanding s t := by
  unfold execIndexCellDone at h
  split at h
  next c n list hc =>
    have hdone := keepsStanding_cellIsDone s c
    have hexposed := hdone.underExposure (c := c) (by rw [hc]; rfl)
    dsimp only at h
    split at h <;> cases h
    · split <;> exact (keepsStanding_enterGate hexposed rfl _).after hdone
    · exact .refl s
  all_goals
    cases h
    exact .refl s

theorem execCutCompletion_keepsAgreement {s t : State} (h : execCutCompletion s = .next t) : KeepsAgreement s t := by
  unfold execCutCompletion at h
  split at h
  next c hc =>
    split at h
    next f hf =>
      cases h
      refine (keepsStanding_conclude _ _).afterAgreement ((keepsStanding_stallTest _).afterAgreement ?_)
      exact ChangesStanding.ends (g := ⟨.exposed, f.lane, f.attempts⟩) ((keepsStanding_settleFences _ _ _).afterChange
        ((keepsStanding_setLaneFlag _ _ _).afterChange (changesStanding_setContext s c (some f.expose)))) hf
        (by rw [hc]; rfl) (fun hless => .inl ⟨rfl, hless⟩) nofun (by rfl)
    next =>
      cases h
      exact .refl s
  all_goals
    cases h
    exact .refl s

theorem execSpoilCompletion_keepsStanding {s t : State} (h : execSpoilCompletion s = .next t) : KeepsStanding s t := by
  unfold execSpoilCompletion at h
  split at h <;> cases h
  next hspoil => exact (keepsStanding_conclude _ _).after (keepsStanding_gate s (by rw [hspoil]; rfl))
  all_goals exact .refl s

theorem execLampStable_keepsStanding {s t : State} (h : execLampStable s = .next t) : KeepsStanding s t := by
  unfold execLampStable at h
  cases h
  split
  · exact .refl s
  · exact keepsStanding_gate s (by rfl)

theorem keepsStanding_lampFails (s : State) : KeepsStanding s s.lampFails := .of_same rfl rfl rfl

theorem keepsAgreement_spoilExposure {s : State} {c : CtxId} (hc : s.gate.state.underExposure = some c) :
    KeepsAgreement s (s.spoilExposure c) := by
  have hcounted : KeepsStanding s s.countSpoiled := keepsStanding_withCounters s _
  exact (keepsAgreement_interrupt (hcounted.underExposure hc) (by rfl)).after hcounted.keepsAgreement

theorem execLampFault_keepsAgreement {s t : State} (h : execLampFault s = .next t) : KeepsAgreement s t := by
  unfold execLampFault at h
  split at h
  · cases h
    exact .refl s
  · split at h
    · cases h
      exact .refl s
    · cases h
      exact (keepsStanding_setFlag s _).keepsAgreement
    all_goals
      have hfails := keepsStanding_lampFails s
      split at h <;> cases h
      next c hc =>
        exact (keepsStanding_conclude _ _).afterAgreement ((keepsAgreement_spoilExposure (hfails.underExposure hc)).after
          hfails.keepsAgreement)
      next => exact hfails.keepsAgreement

theorem Gate.stop_underExposure (g : Gate) : g.stop.state.underExposure = none := rfl

theorem keepsAgreement_stopTransport (s : State) : KeepsAgreement s s.stopTransport := by
  have hflag := keepsStanding_setFlag s transportBit
  unfold State.stopTransport
  dsimp only
  split
  next c hc =>
    have hcounted : KeepsStanding (s.setFlag transportBit) (s.setFlag transportBit).countSpoiled :=
      keepsStanding_withCounters _ _
    exact (keepsAgreement_interrupt (hcounted.underExposure hc) (Gate.stop_underExposure _)).after
      (hcounted.after hflag).keepsAgreement
  next hnone =>
    exact ((keepsStanding_gate _ ((Gate.stop_underExposure _).trans hnone.symm)).after hflag).keepsAgreement

theorem execJam_keepsAgreement {s t : State} (h : execJam s = .next t) : KeepsAgreement s t := by
  unfold execJam at h
  cases h
  split
  · exact .refl s
  · exact (keepsStanding_conclude _ _).afterAgreement (keepsAgreement_stopTransport s)

theorem execDoorOpen_keepsAgreement {s t : State} (h : execDoorOpen s = .next t) : KeepsAgreement s t := by
  unfold execDoorOpen at h
  split at h <;> cases h
  · exact .refl s
  · exact (keepsStanding_conclude _ _).afterAgreement ((keepsStanding_gate _ (by rfl)).afterAgreement
      (keepsAgreement_stopTransport s))

theorem execWarmUpExpiry_keepsStanding {s t : State} (h : execWarmUpExpiry s = .next t) : KeepsStanding s t := by
  unfold execWarmUpExpiry at h
  cases h
  split
  · exact keepsStanding_lampFails s
  · exact .refl s

theorem execStandbyExpiry_keepsStanding {s t : State} (h : execStandbyExpiry s = .next t) : KeepsStanding s t := by
  unfold execStandbyExpiry at h
  cases h
  split
  · exact (keepsStanding_conclude _ _).after (keepsStanding_gate s (by rfl))
  · exact .refl s

/-! ## The step -/

theorem exec_keepsAgreement {s t : State} {c : Instr} (h : exec c s = .next t) : KeepsAgreement s t := by
  cases c with
  | defineLane => exact execute_keepsStanding (keepsStanding_defineLane · s) h
  | mapClass => exact execute_keepsStanding (keepsStanding_mapClass · s) h
  | lookup => exact execute_keepsStanding (keepsStanding_lookup · s) h
  | findNext => exact execute_keepsStanding (keepsStanding_findNext · s) h
  | amend => exact execute_keepsStanding (keepsStanding_amend · s) h
  | withdraw => exact execute_keepsStanding (keepsStanding_withdraw · s) h
  | purge => exact execute_keepsStanding (keepsStanding_purge · s) h
  | place => exact execute_keepsAgreement (keepsAgreement_place · s) h
  | openFiche => exact execute_keepsAgreement (keepsAgreement_openFiche · s) h
  | readFiche => exact execute_keepsStanding (keepsStanding_readFiche · s) h
  | close => exact execute_keepsAgreement (keepsAgreement_close · s) h
  | fence => exact execute_keepsStanding (keepsStanding_fence · s) h
  | requeue => exact execute_keepsAgreement (keepsAgreement_requeue · s) h
  | release => exact execute_keepsAgreement (keepsAgreement_release · s) h
  | loadArbitration => exact execute_keepsStanding (keepsStanding_loadArbitration · s) h
  | loadCurve => exact execute_keepsStanding (keepsStanding_loadCurve · s) h
  | setFilm => exact execute_keepsStanding (keepsStanding_setFilm · s) h
  | setStandby => exact execute_keepsStanding (keepsStanding_setStandby · s) h
  | lampOn => exact execute_keepsStanding (keepsStanding_lampOn · s) h
  | lampOff => exact execute_keepsStanding (keepsStanding_lampOff · s) h
  | lampClear => exact execute_keepsStanding (keepsStanding_lampClear · s) h
  | readStatus => exact execute_keepsStanding (fun _ => .refl s) h
  | readAttention => exact execute_keepsStanding (keepsStanding_readAttention · s) h
  | setAttentionMask => exact execute_keepsStanding (keepsStanding_setAttentionMask · s) h
  | readCounters => exact execute_keepsStanding (keepsStanding_readCounters · s) h
  | reset => exact execute_keepsAgreement (keepsAgreement_softReset · s) h
  | unknownRequest => exact execute_keepsStanding (fun _ => .refl s) h
  | frameArrival strobed => exact (execFrameArrival_keepsStanding h).keepsAgreement
  | sendCompletion => exact (execSendCompletion_keepsStanding h).keepsAgreement
  | resetLine => exact execResetLine_keepsAgreement h
  | resetLineRelease select => exact (execResetLineRelease_keepsStanding h).keepsAgreement
  | powerOn => exact execPowerOn_keepsAgreement h
  | imageHeader byte => exact (execImageHeader_keepsStanding h).keepsAgreement
  | imageEnd byte => exact execImageEnd_keepsAgreement h
  | discardingEnd byte => exact (execDiscardingEnd_keepsStanding (byte := byte) h).keepsAgreement
  | imageAbort =>
    cases h
    exact KeepsStanding.keepsAgreement (.of_same rfl rfl rfl)
  | imageWaitExpiry n => exact execImageWaitExpiry_keepsAgreement h
  | grantDecision => exact execGrantDecision_keepsAgreement h
  | advanceDone => exact (execAdvanceDone_keepsStanding h).keepsAgreement
  | titleDone => exact (execTitleDone_keepsStanding h).keepsAgreement
  | cellDone => exact (execCellDone_keepsStanding h).keepsAgreement
  | indexCellDone => exact (execIndexCellDone_keepsStanding h).keepsAgreement
  | cutCompletion => exact execCutCompletion_keepsAgreement h
  | spoilCompletion => exact (execSpoilCompletion_keepsStanding h).keepsAgreement
  | lampStable => exact (execLampStable_keepsStanding h).keepsAgreement
  | lampFault => exact execLampFault_keepsAgreement h
  | jam => exact execJam_keepsAgreement h
  | doorOpen => exact execDoorOpen_keepsAgreement h
  | warmUpExpiry => exact (execWarmUpExpiry_keepsStanding h).keepsAgreement
  | standbyExpiry => exact (execStandbyExpiry_keepsStanding h).keepsAgreement
  | storageUpset buffer row group bit => exact (execStorageUpset_keepsStanding h).keepsAgreement
  | imageByteTaken byte => exact (execImageByteTaken_keepsStanding h).keepsAgreement
  | imageAbortRelease =>
    cases h
    exact KeepsStanding.keepsAgreement (.of_same rfl rfl rfl)

/-- A second changes timers alone. -/
theorem keepsStanding_second (s : State) : KeepsStanding s s.second := by
  refine ⟨rfl, funext fun c => ?_⟩
  have hmap : s.second.fiche c = (s.fiche c).map fun f => { f with timer := countDown f.timer } := by
    simp [State.fiche, State.second, Vector.get_eq_getElem]
  have hstage : (s.second.fiche c).map Fiche.stage = (s.fiche c).map Fiche.stage := by
    rw [hmap, Option.map_map]
    rfl
  simp only [State.standing, hstage]
  rfl

theorem step_keepsStandings {s t : State} (h : step s = .next t) :
    (AllAgree s.standing → AllAgree t.standing) ∧ (ComposeOnce s.standing → ComposeOnce t.standing) := by
  unfold step at h
  split at h
  · cases h
    exact ⟨(keepsStanding_second s).keepsAgreement.agree, (keepsStanding_second s).keepsAgreement.compose⟩
  next c rest _ =>
    have hkeeps := exec_keepsAgreement (s := { s with pending := rest }) h
    exact ⟨hkeeps.agree, hkeeps.compose⟩

/-- Settles O59: every update of a step changes at most one context's standing, and keeps it in agreement; a fiche is opened
only on a lane that composes none. -/
theorem stepKeepsQueuesAndGateAgreeing : Obligations.StepKeepsQueuesAndGateAgreeing :=
  ⟨fun _ _ hs h => queuesAndGateAgree_iff.2 ((step_keepsStandings h).1 (queuesAndGateAgree_iff.1 hs)),
    fun _ _ hs h => composesOnce_iff.2 ((step_keepsStandings h).2 (composesOnce_iff.1 hs))⟩

end Sys2Proof.Machine
end

section
/-! SUPPORT. Every well-formed command goes on, and an ill-formed one faults (R41, R94; log entry 27). -/
namespace Sys2Proof.Machine

/-- A request's command goes on, whether it is performed, refused or not due. -/
theorem execute_continues (s : State) (row : RequestRow) (act : Frame → State → State × Answer) :
    Continues (s.execute row act) := by
  rcases execute_cases s row act with h | ⟨f, rest, -, -, -, ⟨k, -, h⟩ | ⟨-, t, -, h⟩ | ⟨-, t, k, b, -, h⟩⟩ <;>
    exact ⟨_, h⟩

theorem execImageWaitExpiry_continues {n : Nat} (h : n < 8) (s : State) : Continues (execImageWaitExpiry n s) := by
  unfold execImageWaitExpiry
  split
  next hnone => exact absurd (ctxOf_eq_none_iff.1 hnone) (by omega)
  next => split <;> exact ⟨_, rfl⟩

theorem execImageWaitExpiry_faults {n : Nat} (h : 8 ≤ n) (s : State) :
    execImageWaitExpiry n s = .fault .noSuchContext := by
  simp only [execImageWaitExpiry, ctxOf_eq_none_iff.2 h]

theorem execStorageUpset_continues {buffer row group bit : Nat}
    (h : buffer < 4096 ∧ row < 1536 ∧ group < 256 ∧ bit < 72) (s : State) :
    Continues (execStorageUpset buffer row group bit s) := ⟨_, if_pos h⟩

theorem execStorageUpset_faults {buffer row group bit : Nat}
    (h : 4096 ≤ buffer ∨ 1536 ≤ row ∨ 256 ≤ group ∨ 72 ≤ bit) (s : State) :
    execStorageUpset buffer row group bit s = .fault .noSuchStorage := by
  refine if_neg ?_
  simp only [bufferCount]
  omega

theorem exec_continues {c : Instr} (hc : c.wellFormed = true) (s : State) : Continues (exec c s) := by
  cases c with
  | imageWaitExpiry n => exact execImageWaitExpiry_continues (by simpa [Instr.wellFormed] using hc) s
  | storageUpset buffer row group bit =>
    exact execStorageUpset_continues (by simpa [Instr.wellFormed, and_assoc] using hc) s
  | frameArrival _ | imageByteTaken _ | imageHeader _ | imageEnd _ | discardingEnd _ | grantDecision | advanceDone
  | titleDone | cellDone | indexCellDone | cutCompletion | spoilCompletion | lampFault | doorOpen =>
    simp only [exec, execFrameArrival, execImageByteTaken, execImageHeader, execImageEnd, execDiscardingEnd,
      execGrantDecision, execAdvanceDone, execTitleDone, execCellDone, execIndexCellDone, execCutCompletion,
      execSpoilCompletion, execLampFault, execDoorOpen]
    repeat' split
    all_goals exact ⟨_, rfl⟩
  | sendCompletion | resetLine | resetLineRelease _ | powerOn | imageAbort | imageAbortRelease | lampStable | jam
  | warmUpExpiry | standbyExpiry => exact ⟨_, rfl⟩
  | defineLane | mapClass | lookup | findNext | amend | withdraw | purge | place | openFiche | readFiche | close | fence
  | requeue | release | loadArbitration | loadCurve | setFilm | setStandby | lampOn | lampOff | lampClear | readStatus
  | readAttention | setAttentionMask | readCounters | reset | unknownRequest => exact execute_continues s _ _

/-- Settles O2: each command goes on or faults by its own cases, and no update of one touches the queue of commands. -/
theorem wellFormedCommandsContinue : Obligations.WellFormedCommandsContinue := by
  refine ⟨fun c s hc => ?_, fun n s hn => execImageWaitExpiry_faults hn s, fun _ _ _ _ s h => execStorageUpset_faults h s⟩
  obtain ⟨t, ht⟩ := exec_continues hc s
  exact ⟨t, ht, (exec_keepsAgreement ht).pending⟩

end Sys2Proof.Machine
end

section
/-! SUPPORT. PLACE: its operands, the cells it looks at (R52, R54), and the fiches it closes and opens (R46, R126). -/
namespace Sys2Proof.Machine

/-! ## Operands -/

theorem spanOf_eq_some_iff {n : Nat} {v : Span} : spanOf n = some v ↔ n = v.code := by
  constructor
  · intro h
    unfold spanOf at h
    split at h <;> cases h <;> rfl
  · rintro rfl
    cases v <;> rfl

theorem spanOf_eq_none_iff {n : Nat} : spanOf n = none ↔ 2 ≤ n := by
  match n with
  | 0 | 1 | n + 2 => simp [spanOf]

/-! ## Runs and tails -/

theorem isFree_iff {e : Cell} : e.isFree = true ↔ e = .free := by
  cases e <;> simp [Cell.isFree]

theorem runIsFree_iff {cells : List Cell} {usable first length : Nat} : runIsFree cells usable first length = true ↔
    first + length ≤ usable ∧ ∀ i e, first ≤ i → i < first + length → cells[i]? = some e → e = .free := by
  simp only [runIsFree, Bool.and_eq_true, decide_eq_true_eq, List.all_eq_true, isFree_iff]
  refine and_congr_right fun _ => ⟨fun h i e hfirst hlast he => h e ?_, fun h e he => ?_⟩
  · refine List.mem_iff_getElem?.2 ⟨i - first, ?_⟩
    rw [List.getElem?_take, if_pos (by omega), List.getElem?_drop, Nat.add_sub_cancel' hfirst, he]
  · obtain ⟨i, hi⟩ := List.mem_iff_getElem?.1 he
    rw [List.getElem?_take] at hi
    split at hi
    next hlt => exact h (first + i) e (by omega) (by omega) (by rwa [List.getElem?_drop] at hi)
    next => cases hi

/-- A tail begins at 0 when every usable cell is FREE (R54). -/
theorem tailStart_allFree {cells : List Cell} {usable : Nat} (h : ∀ i < usable, cells[i]? = some .free) (span : Span) :
    tailStart cells usable span.cells = 0 := by
  have hnone : ((cells.take usable).zipIdx.filter fun e => !e.1.isFree) = [] := by
    refine List.filter_eq_nil_iff.2 fun e he => ?_
    have he := List.mem_zipIdx_iff_getElem?.1 he
    rw [List.getElem?_take] at he
    split at he
    next hlt =>
      rw [h _ hlt, Option.some.injEq] at he
      simp [← he, Cell.isFree]
    next => cases he
  simp only [tailStart, hnone]
  cases span <;> rfl

/-- The highest usable cell that is not FREE gives the tail's first cell (R54). -/
theorem tailStart_eq {cells : List Cell} {usable j : Nat} {e : Cell} (hj : j < usable) (he : cells[j]? = some e)
    (hused : e ≠ .free) (hafter : ∀ i, j < i → i < usable → cells[i]? = some .free) (s : Nat) :
    tailStart cells usable s = (j + 1 + s - 1) / s * s := by
  have hlength : j < (cells.take usable).length := by
    have := (List.getElem?_eq_some_iff.1 he).1
    rw [List.length_take]
    omega
  have hcell : (cells.take usable)[j] = e := by
    have := List.getElem?_eq_getElem hlength
    rw [List.getElem?_take, if_pos hj, he, Option.some.injEq] at this
    exact this.symm
  have hlast : (((cells.take usable).drop (j + 1)).zipIdx (j + 1)).filter (fun e => !e.1.isFree) = [] := by
    refine List.filter_eq_nil_iff.2 fun x hx => ?_
    obtain ⟨hle, hx⟩ := List.mk_mem_zipIdx_iff_le_and_getElem?_sub.1 hx
    rw [List.getElem?_drop, List.getElem?_take] at hx
    split at hx
    next hlt =>
      rw [hafter _ (by omega) hlt, Option.some.injEq] at hx
      simp [← hx, Cell.isFree]
    next => cases hx
  have hsplit : cells.take usable = (cells.take usable).take j ++ e :: (cells.take usable).drop (j + 1) := by
    rw [← hcell, List.getElem_cons_drop, List.take_append_drop]
  have hnot : e.isFree = false := by
    cases h : e.isFree with
    | false => rfl
    | true => exact absurd (isFree_iff.1 h) hused
  have hmin : min j (cells.take usable).length = j := by omega
  have hfilter : ((cells.take usable).zipIdx.filter fun e => !e.1.isFree) =
      (((cells.take usable).take j).zipIdx.filter fun e => !e.1.isFree) ++ [(e, j)] := by
    conv_lhs => rw [hsplit]
    rw [List.zipIdx_append, List.zipIdx_cons, List.filter_append, List.filter_cons, List.length_take, hmin]
    simp only [hnot, Nat.zero_add]
    rw [hlast]
    rfl
  simp only [tailStart, hfilter, List.map_append, List.map_cons, List.map_nil, List.getLast?_concat, Option.getD_some]

/-- Rounded up to a multiple of the cells per page (R19, R54). -/
theorem roundUp_span (n : Nat) (span : Span) : (n + span.cells - 1) / span.cells * span.cells =
    if n % span.cells = 0 then n else n + (span.cells - n % span.cells) := by
  by_cases h : n % span.cells = 0
  · rw [if_pos h]
    cases span <;> simp only [Span.cells] at h ⊢ <;> omega
  · rw [if_neg h]
    cases span <;> simp only [Span.cells] at h ⊢ <;> omega

/-! ## What closing a fiche leaves -/

section
variable {s : State} {x : CtxId} {y : Fiche}

theorem expireImageWait_of_fiche (h : s.fiche x = some y) :
    s.expireImageWait x = { (s.setContext x (some { y with
        cells := y.cells.map (Cell.modify fun o => if o.image = .awaiting then { o with image := .missing } else o)
        state := .queued, timer := none })).setQueue y.lane (s.queue y.lane ++ [x]) with
      port := { s.port with
        flags := s.port.flags ||| BitVec.twoPow 24 (4 * y.lane.val + 2)
        counters := { s.port.counters with
          missingPlaceholders := min 65535 (s.port.counters.missingPlaceholders + y.countImages .awaiting) } } } := by
  have hgiven : (((s.setContext x (some y.givenUp)).setLaneFlag y.lane .missing).withCounters fun k =>
      { k with missingPlaceholders := saturate k.missingPlaceholders (y.countImages .awaiting) }).fiche x =
      some y.givenUp := State.fiche_setContext_self ..
  have hqueued := queueFiche_of_fiche hgiven
  simp only [State.expireImageWait, h]
  refine hqueued.trans ?_
  simp only [State.setContext, State.withCounters, State.setLaneFlag, State.setFlag, Vector.set_set]
  rfl

/-- A complete fiche is QUEUED at once (R128). -/
theorem closeFiche_complete (h : s.fiche x = some y) (k : CloseCause) (hdone : y.countImages .awaiting = 0) :
    s.closeFiche x k = (s.setContext x (some { y with state := .queued, cause := some k, timer := none })).setQueue
      y.lane (s.queue y.lane ++ [x]) := by
  rw [closeFiche_of_fiche k h]
  dsimp only
  rw [if_pos hdone, queueFiche_of_fiche (State.fiche_setContext_self ..), setContext_setContext]
  rfl

/-- A fiche that awaits pages is CLOSING, its timer running (R128). -/
theorem closeFiche_waits (h : s.fiche x = some y) (k : CloseCause) (hawaits : y.countImages .awaiting ≠ 0)
    (hwait : y.imageWait ≠ 0) : s.closeFiche x k =
      s.setContext x (some { y with state := .closing, cause := some k, timer := some y.imageWait }) := by
  rw [closeFiche_of_fiche k h]
  dsimp only
  rw [if_neg hawaits, if_neg hwait]

/-- A fiche with no image wait gives its awaited pages up (R129). -/
theorem closeFiche_givesUp (h : s.fiche x = some y) (k : CloseCause) (hawaits : y.countImages .awaiting ≠ 0)
    (hwait : y.imageWait = 0) : s.closeFiche x k =
      { (s.setContext x (some { y with
          cells := y.cells.map (Cell.modify fun o => if o.image = .awaiting then { o with image := .missing } else o)
          state := .queued, cause := some k, timer := none })).setQueue y.lane (s.queue y.lane ++ [x]) with
        port := { s.port with
          flags := s.port.flags ||| BitVec.twoPow 24 (4 * y.lane.val + 2)
          counters := { s.port.counters with
            missingPlaceholders := min 65535 (s.port.counters.missingPlaceholders + y.countImages .awaiting) } } } := by
  rw [closeFiche_of_fiche k h]
  dsimp only
  rw [if_neg hawaits, if_pos hwait, expireImageWait_of_fiche (State.fiche_setContext_self ..), setContext_setContext]
  rfl

/-- A closed fiche stays in its context with its serial and format; lanes and records stay as they were. -/
theorem closeFiche_frame (h : s.fiche x = some y) (k : CloseCause) :
    (s.closeFiche x k).laneTable = s.laneTable ∧ (s.closeFiche x k).directory = s.directory ∧
      ∃ z, (s.closeFiche x k).fiche x = some z ∧ z.serial = y.serial ∧ z.format = y.format := by
  by_cases hdone : y.countImages .awaiting = 0
  · rw [closeFiche_complete h k hdone]
    exact ⟨rfl, rfl, _, State.fiche_setContext_self .., rfl, rfl⟩
  · by_cases hwait : y.imageWait = 0
    · rw [closeFiche_givesUp h k hdone hwait]
      exact ⟨rfl, rfl, _, State.fiche_setContext_self .., rfl, rfl⟩
    · rw [closeFiche_waits h k hdone hwait]
      exact ⟨rfl, rfl, _, State.fiche_setContext_self .., rfl, rfl⟩

end

end Sys2Proof.Machine
end

section
/-! SUPPORT. PLACE: its refusals in their order (R50, R57), and the cells, fiches and reply of a document placed (R51 to R60). -/
namespace Sys2Proof.Machine

/-! ## Refusals -/

theorem place_malformed {f : Frame} {s : State} (h : field f.body 7 1 = 0 ∨ 16 ≤ field f.body 6 1 ∨ 2 ≤ field f.body 8 1) :
    place f s = s.refuse .malformed := by
  unfold place
  dsimp only
  split
  next cls span hcls hspan =>
    rcases h with h | h | h
    · rw [if_pos h]
    · rw [classOf_eq_none_iff.2 h] at hcls
      cases hcls
    · rw [spanOf_eq_none_iff.2 h] at hspan
      cases hspan
  next => rfl

/-- The operands of a PLACE that are in range: its class, its span, and the lane the class maps to. -/
structure PlaceFormed (s : State) (f : Frame) (cls : Fin 16) (span : Span) (l : LaneId) : Prop where
  pages : field f.body 7 1 ≠ 0
  classNumber : field f.body 6 1 = cls.val
  spanCode : spanOf (field f.body 8 1) = some span
  lane : s.laneTable.classMap.get cls = l

/-- What a PLACE that passes its checks leaves and answers (R57, R58, R60). -/
def placeOutcome (f : Frame) (s : State) (cls : Fin 16) (span : Span) (l : LaneId) : Option Placement → State × Answer
  | none => s.refuse .noContext
  | some p => (s.conclude { p.state with
      directory := insertRecord (placedRecord f cls span l p.parts) p.state.directory },
    some (.ok, p.bytes (fieldKey f.body 0) l))

section
variable {s : State} {f : Frame} {cls : Fin 16} {span : Span} {l : LaneId} {d : LaneDef}

/-- The checks of a PLACE whose operands are in range, on the lane of its class. -/
theorem place_of_formed (h : PlaceFormed s f cls span l) : place f s =
    match s.enabledLane l with
    | none => s.refuse .noLane
    | some d =>
      if (s.record (fieldKey f.body 0)).isSome then s.refuse .duplicate
      else if 1024 ≤ s.directory.length then s.refuse .directoryFull
      else if 64 < field f.body 7 1 ∨ usableCells d.format d.k < field f.body 7 1 * span.cells then s.refuse .tooLarge
      else
        placeOutcome f s cls span l (s.choosePlace l d (fieldKey f.body 0) span (field f.body 7 1)) := by
  simp only [place, classOf_eq_some_iff.2 h.classNumber, h.spanCode, if_neg h.pages, h.lane]
  rfl

theorem place_noLane (h : PlaceFormed s f cls span l) (hd : s.enabledLane l = none) : place f s = s.refuse .noLane := by
  rw [place_of_formed h, hd]

theorem place_duplicate (h : PlaceFormed s f cls span l) (hd : s.enabledLane l = some d)
    (hr : s.record (fieldKey f.body 0) ≠ none) : place f s = s.refuse .duplicate := by
  rw [place_of_formed h, hd]
  exact if_pos (Option.isSome_iff_ne_none.2 hr)

theorem place_directoryFull (h : PlaceFormed s f cls span l) (hd : s.enabledLane l = some d)
    (hr : s.record (fieldKey f.body 0) = none) (hfull : 1024 ≤ s.directory.length) :
    place f s = s.refuse .directoryFull := by
  rw [place_of_formed h, hd]
  exact (if_neg (by simp [hr])).trans (if_pos hfull)

theorem place_tooLarge (h : PlaceFormed s f cls span l) (hd : s.enabledLane l = some d)
    (hr : s.record (fieldKey f.body 0) = none) (hroom : s.directory.length < 1024)
    (hlarge : 64 < field f.body 7 1 ∨ usableCells d.format d.k < field f.body 7 1 * span.cells) :
    place f s = s.refuse .tooLarge := by
  rw [place_of_formed h, hd]
  exact (if_neg (by simp [hr])).trans ((if_neg (not_le.2 hroom)).trans (if_pos hlarge))

/-- A PLACE that passes the five checks of R50 is placed where R51 to R56 find room. -/
theorem place_of_passes {rest : List Frame} (h : PlacePasses s f rest cls span l d) : place f s =
    placeOutcome f s cls span l (s.choosePlace l d (fieldKey f.body 0) span (field f.body 7 1)) := by
  obtain ⟨-, hcls, hspan, hlow, hhigh, hlane, hd, hr, hroom, hcells⟩ := h
  have hsmall : ¬(64 < field f.body 7 1 ∨ usableCells d.format d.k < field f.body 7 1 * span.cells) := by omega
  rw [place_of_formed ⟨by omega, hcls, hspan, hlane⟩, hd]
  exact (if_neg (by simp [hr])).trans ((if_neg (not_le.2 hroom)).trans (if_neg hsmall))

end

/-! ## Where a document is placed -/

theorem indexEntryFree_iff {y : Fiche} :
    y.indexEntryFree = true ↔ y.k = 0 ∨ y.indexUsed < y.k.val * y.format.indexEntries := by
  simp only [Fiche.indexEntryFree, indexCapacity, Bool.or_eq_true, beq_iff_eq, Fin.val_eq_zero_iff]
  exact or_congr_right decide_eq_true_iff

section
variable {s : State} {l : LaneId} {d : LaneDef} {key : Key} {span : Span} {n : Nat} {x : CtxId} {y : Fiche}

theorem choosePlace_fresh (h : s.composingContext l = none) :
    s.choosePlace l d key span n = s.placeFresh l d key span n := by
  simp only [State.choosePlace, h, Option.bind_none]

theorem choosePlace_fits {g : Nat} (hx : s.composingContext l = some x) (hy : s.fiche x = some y)
    (hfree : y.indexEntryFree = true)
    (hg : firstFit y.cells (usableCells y.format y.k) (n * span.cells) span.cells = some g) :
    s.choosePlace l d key span n =
      some ⟨s.placePart key span ⟨x, y.serial, g, 1, n⟩, [⟨x, y.serial, g, 1, n⟩], none, none, none⟩ := by
  simp only [State.choosePlace, hx, Option.bind_some, hy, Option.map_some, hfree, if_true, hg]

/-- The composing fiche has no index entry, or no run that fits (R52). -/
def NoFit (y : Fiche) (span : Span) (n : Nat) : Prop :=
  y.indexEntryFree = false ∨ ∀ g, g % span.cells = 0 →
    runIsFree y.cells (usableCells y.format y.k) g (n * span.cells) = false

/-- The composing fiche splits the document: its lane allows it, its tail holds a page, and it has an index entry (R54). -/
def Splits (y : Fiche) (span : Span) : Prop :=
  y.split = .allow ∧ 1 ≤ tailPages y.cells (usableCells y.format y.k) span.cells ∧ y.indexEntryFree = true

theorem choosePlace_noFit (hx : s.composingContext l = some x) (hy : s.fiche x = some y) (h : NoFit y span n) :
    s.choosePlace l d key span n =
      if y.split = .allow ∧ 1 ≤ tailPages y.cells (usableCells y.format y.k) span.cells ∧ y.indexEntryFree = true then
        s.placeSplit x y l d key span n (tailPages y.cells (usableCells y.format y.k) span.cells)
      else if y.indexUsed ≠ 0 then s.placeAfterFull x l d key span n
      else s.placeAfterDiscard x y l d key span n := by
  have hnone : (if y.indexEntryFree = true then
      firstFit y.cells (usableCells y.format y.k) (n * span.cells) span.cells else none) = none := by
    rcases h with h | h
    · rw [h]
      rfl
    · rw [firstFit_eq_none h, ite_self]
  simp only [State.choosePlace, hx, Option.bind_some, hy, Option.map_some, hnone]

theorem choosePlace_splits (hx : s.composingContext l = some x) (hy : s.fiche x = some y) (h : NoFit y span n)
    (hsplits : Splits y span) : s.choosePlace l d key span n =
      s.placeSplit x y l d key span n (tailPages y.cells (usableCells y.format y.k) span.cells) := by
  rw [choosePlace_noFit hx hy h]
  exact if_pos hsplits

theorem choosePlace_closes (hx : s.composingContext l = some x) (hy : s.fiche x = some y) (h : NoFit y span n)
    (hsplits : ¬Splits y span) (hused : y.indexUsed ≠ 0) :
    s.choosePlace l d key span n = s.placeAfterFull x l d key span n := by
  rw [choosePlace_noFit hx hy h]
  exact (if_neg hsplits).trans (if_pos hused)

theorem choosePlace_discards (hx : s.composingContext l = some x) (hy : s.fiche x = some y) (h : NoFit y span n)
    (hsplits : ¬Splits y span) (hempty : y.indexUsed = 0) :
    s.choosePlace l d key span n = s.placeAfterDiscard x y l d key span n := by
  rw [choosePlace_noFit hx hy h]
  exact (if_neg hsplits).trans (if_neg (not_not.2 hempty))

/-- Without a FREE context a document that needs a fresh fiche after a split or a FULL close is not placed (R57). -/
theorem choosePlace_noContext (hx : s.composingContext l = some x) (hy : s.fiche x = some y) (h : NoFit y span n)
    (hfull : s.lowestFree = none) (hleaves : y.indexUsed ≠ 0 ∨ Splits y span) :
    s.choosePlace l d key span n = none := by
  by_cases hsplits : Splits y span
  · simp only [choosePlace_splits hx hy h hsplits, State.placeSplit, hfull, Option.map_none]
  · simp only [choosePlace_closes hx hy h hsplits (hleaves.resolve_right hsplits), State.placeAfterFull, hfull,
      Option.map_none]

end

/-- Settles O23: each refusal under the negation of those before it; NO_CONTEXT where no context is FREE for a fresh fiche. -/
theorem placeRefusalsInOrder : Obligations.PlaceRefusalsInOrder := by
  intro s f rest hx
  refine ⟨fun h => execute_answered hx (place_malformed h), fun cls span l hpages hcls hspan hlane => ?_⟩
  have hformed : PlaceFormed s f cls span l := ⟨hpages, hcls, hspan, hlane⟩
  refine ⟨fun hd => execute_answered hx (place_noLane hformed hd), fun d hd => ⟨fun hr =>
    execute_answered hx (place_duplicate hformed hd hr), fun hr => ⟨fun hfull =>
      execute_answered hx (place_directoryFull hformed hd hr hfull), fun hroom => ⟨fun hlarge =>
        execute_answered hx (place_tooLarge hformed hd hr hroom hlarge), fun hsmall hcells hnone => ?_⟩⟩⟩⟩
  have hpasses := place_of_passes (rest := rest) (d := d)
    ⟨hx, hcls, hspan, by omega, hsmall, hlane, hd, hr, hroom, hcells⟩
  refine ⟨fun hidle => execute_answered hx ?_, fun x y hcx hy hleaves hnofit => execute_answered hx ?_⟩
  · rw [hpasses, choosePlace_fresh hidle, State.placeFresh, hnone]
    rfl
  · have hnofit : NoFit y span (field f.body 7 1) := by
      rwa [NoFit, ← Bool.not_eq_true, indexEntryFree_iff]
    have hleaves : y.indexUsed ≠ 0 ∨ Splits y span := by
      rwa [Splits, indexEntryFree_iff]
    rw [hpasses, choosePlace_noContext hcx hy hnofit hnone hleaves]
    rfl

/-! ## The fiche a lane opens for a document -/

section
variable {s : State} {c : CtxId} {l : LaneId} {d : LaneDef} {key : Key} {span : Span}

theorem placeOnNew_eq (q n : Nat) : s.placeOnNew c l d key span q n =
    ((s.setNextSerial l (((s.lane l).nextSerial + 1) % 1000000)).setContext c
        (some (freshFiche l d (s.lane l).nextSerial key span q n)), ⟨c, (s.lane l).nextSerial, 0, q, n⟩) := by
  have hopened : (s.openFiche c l d none).fiche c = some (newFiche l d (s.lane l).nextSerial none) :=
    State.fiche_setContext_self ..
  refine Prod.ext ((modifyFiche_of_fiche hopened _).trans ?_) rfl
  simp only [State.openFiche, State.setContext, State.setNextSerial, State.setLane, Vector.set_set]
  rfl

end

/-! ## The reply -/

theorem serialOf_of_fiche {s : State} {c : CtxId} {x : Fiche} (h : s.fiche c = some x) : s.serialOf c = x.serial := by
  simp [State.serialOf, h]

/-- A part of the reply, on its fiche's format (R60). -/
theorem placedPartBytes_eq {s : State} {p : RecordPart} {x : Fiche} (h : s.fiche p.ctx = some x) :
    ctxSerialBytes p.ctx p.serial ++ bytesOf 2 p.firstCell ++ printedBytes (s.formatOf p.ctx) p.firstCell ++
        bytesOf 1 p.firstPage ++ bytesOf 2 p.pages =
      placedPartBytes p.ctx p.serial x.format p.firstCell p.firstPage p.pages := by
  rw [formatOf_of_fiche h]
  rfl

end Sys2Proof.Machine
end

section
/-! SUPPORT. PLACE on the composing fiche, by first fit (R52, R53), and its reply (R60). -/
namespace Sys2Proof.Machine

section
variable {s : State} {f : Frame} {rest : List Frame} {cls : Fin 16} {span : Span} {l : LaneId} {d : LaneDef}

/-- PLACE with the cells chosen: its record enters the directory, and it answers with the placement. -/
theorem exec_place_of_choice {t : State} {parts : List RecordPart} {closed : Option (CtxId × CloseCause)}
    {discarded : Option (CtxId × Nat)} {opened : Option CtxId} {bytes : List Byte} (h : PlacePasses s f rest cls span l d)
    (hchoice : s.choosePlace l d (fieldKey f.body 0) span (field f.body 7 1) = some ⟨t, parts, closed, discarded, opened⟩)
    (hdirectory : t.directory = s.directory)
    (hbytes : (Placement.mk t parts closed discarded opened).bytes (fieldKey f.body 0) l = bytes) :
    exec .place s = .next
      ((s.conclude { t with directory := insertRecord (placedRecord f cls span l parts) s.directory }).answered f rest .ok
        bytes) := by
  refine execute_answered h.1 ?_
  rw [place_of_passes h, hchoice, ← hdirectory, ← hbytes]
  rfl

theorem PlacePasses.length_pos (h : PlacePasses s f rest cls span l d) : 0 < field f.body 7 1 * span.cells := by
  obtain ⟨-, -, -, hpages, -⟩ := h
  refine Nat.mul_pos hpages ?_
  cases span <;> decide

end

theorem placePart_of_fiche {s : State} {key : Key} {span : Span} {p : RecordPart} {y : Fiche}
    (hy : s.fiche p.ctx = some y) : s.placePart key span p = s.setContext p.ctx (some { y with
      cells := occupyRun y.cells key span p.firstCell p.firstPage p.pages, indexUsed := y.indexUsed + 1 }) :=
  modifyFiche_of_fiche hy _

/-- Settles O20: the run chosen is the lowest one that fits, and the model's list functions are read off per cell. -/
theorem placeFillsLowestFreeRun : Obligations.PlaceFillsLowestFreeRun := by
  refine ⟨⟨fun _ _ => spanOf_eq_some_iff, fun _ _ => rfl⟩, fun _ _ _ _ => runIsFree_iff, freeRun_getElem?,
    fun r rs => ⟨insertRecord_perm r rs, fun h hnew => Ascending.insertRecord h hnew⟩, ?_, ?_⟩
  · intro cells key span first q pages i e he
    rw [occupyRun_getElem?, he]
    rfl
  · intro s f rest cls span l d x y g h hx hy hentry hmod hrun hlowest
    have hfit := firstFit_eq_some h.length_pos hmod hrun hlowest
    have hchoice := choosePlace_fits (d := d) (key := fieldKey f.body 0) hx hy (indexEntryFree_iff.2 hentry) hfit
    rw [placePart_of_fiche hy] at hchoice
    refine exec_place_of_choice h hchoice rfl ?_
    simp only [Placement.bytes, List.flatMap_cons, List.flatMap_nil, List.append_nil,
      formatOf_of_fiche (State.fiche_setContext_self ..)]
    rfl

end Sys2Proof.Machine
end

section
/-! SUPPORT. PLACE on a fiche it opens (R51, R54 to R56): its state, its context and its reply. -/
namespace Sys2Proof.Machine

theorem bit_any_queued {t : State} {x : CtxId} {z : Fiche} (h : t.fiche x = some z) :
    bit ((t.fiche x).any fun f => f.state == .queued) = [if z.state = .queued then 1 else 0] := by
  rw [h]
  cases hz : z.state <;> simp [bit, hz]

section
variable {s : State} {c x : CtxId} {z : Fiche} {key : Key} {l : LaneId}

/-- The reply's item for the fiche that is closed (R60). -/
theorem closedItem_eq {k : CloseCause} (h : s.fiche x = some z) :
    mayBeAbsent 6 ((some (x, k)).map fun (c, cause) => ctxSerialBytes c (s.serialOf c) ++ bytesOf 1 cause.code ++
      bit ((s.fiche c).any fun f => f.state == .queued)) =
      [1] ++ bytesOf 1 x.val ++ bytesOf 3 z.serial ++ bytesOf 1 k.code ++ [if z.state = .queued then 1 else 0] := by
  simp only [Option.map_some, mayBeAbsent, serialOf_of_fiche h, bit_any_queued h]
  rfl

/-- The reply's item for the fiche that is opened (R60). -/
theorem openedItem_eq (h : s.fiche c = some z) :
    mayBeAbsent 4 ((some c).map fun c => ctxSerialBytes c (s.serialOf c)) =
      [1] ++ bytesOf 1 c.val ++ bytesOf 3 z.serial := by
  simp only [Option.map_some, mayBeAbsent, serialOf_of_fiche h]
  rfl

end

theorem lane_closeFiche {s : State} {x : CtxId} {y : Fiche} (h : s.fiche x = some y) (k : CloseCause) (l : LaneId) :
    (s.closeFiche x k).lane l = s.lane l := by
  obtain ⟨hlanes, -, -⟩ := closeFiche_frame h k
  rw [State.lane, hlanes]
  rfl

theorem lane_setNextSerial_self (s : State) (l : LaneId) (m : Nat) :
    (s.setNextSerial l m).lane l = { s.lane l with nextSerial := m } := by
  rw [State.setNextSerial, State.lane_setLane, if_pos rfl]

theorem setNextSerial_setNextSerial (s : State) (l : LaneId) (m n : Nat) :
    (s.setNextSerial l m).setNextSerial l n = s.setNextSerial l n := by
  rw [State.setNextSerial, lane_setNextSerial_self]
  simp only [State.setNextSerial, State.setLane, Vector.set_set]

/-- A context keeps its fiche when a lane opens one in another context. -/
theorem fiche_opened_of_ne {s : State} {x c : CtxId} {z w : Fiche} {l : LaneId} {m : Nat} (hne : x ≠ c)
    (hz : s.fiche x = some z) : ((s.setNextSerial l m).setContext c (some w)).fiche x = some z :=
  (State.fiche_setContext_of_ne hne).trans hz

section
variable {s : State} {f : Frame} {rest : List Frame} {cls : Fin 16} {span : Span} {l : LaneId} {d : LaneDef} {c x : CtxId}
  {y : Fiche}

/-- A document whole on the fiche that its lane opens (R51). -/
theorem exec_place_fresh (h : PlacePasses s f rest cls span l d) (hidle : s.composingContext l = none)
    (hc : s.lowestFree = some c) : exec .place s = .next
      ((s.conclude { (s.setNextSerial l (((s.lane l).nextSerial + 1) % 1000000)).setContext c
          (some (freshFiche l d (s.lane l).nextSerial (fieldKey f.body 0) span 1 (field f.body 7 1))) with
        directory := insertRecord (placedRecord f cls span l
          [⟨c, (s.lane l).nextSerial, 0, 1, field f.body 7 1⟩]) s.directory }).answered f rest .ok
        (bytesOf 6 (fieldKey f.body 0).toNat ++ bytesOf 1 l.val ++ bytesOf 2 0 ++ bytesOf 1 1 ++
          placedPartBytes c (s.lane l).nextSerial d.format 0 1 (field f.body 7 1) ++
          List.replicate 7 0 ++ List.replicate 5 0 ++
          ([1] ++ bytesOf 1 c.val ++ bytesOf 3 (s.lane l).nextSerial))) := by
  have hchoice := choosePlace_fresh (d := d) (key := fieldKey f.body 0) (span := span) (n := field f.body 7 1) hidle
  rw [State.placeFresh, hc, Option.map_some, placeOnNew_eq] at hchoice
  refine exec_place_of_choice h hchoice rfl ?_
  simp only [Placement.bytes, List.flatMap_cons, List.flatMap_nil, List.append_nil,
    openedItem_eq (State.fiche_setContext_self ..), formatOf_of_fiche (State.fiche_setContext_self ..)]
  rfl

/-- A document whole on the fiche opened after the composing one is closed FULL (R56, first case). -/
theorem exec_place_closing (h : PlacePasses s f rest cls span l d) (hx : s.composingContext l = some x)
    (hy : s.fiche x = some y) (hnofit : NoFit y span (field f.body 7 1)) (hsplits : ¬Splits y span)
    (hused : y.indexUsed ≠ 0) (hc : s.lowestFree = some c) : ∃ z, (s.closeFiche x .full).fiche x = some z ∧
      exec .place s = .next
        ((s.conclude { ((s.closeFiche x .full).setNextSerial l (((s.lane l).nextSerial + 1) % 1000000)).setContext c
            (some (freshFiche l d (s.lane l).nextSerial (fieldKey f.body 0) span 1 (field f.body 7 1))) with
          directory := insertRecord (placedRecord f cls span l
            [⟨c, (s.lane l).nextSerial, 0, 1, field f.body 7 1⟩]) s.directory }).answered f rest .ok
          (bytesOf 6 (fieldKey f.body 0).toNat ++ bytesOf 1 l.val ++ bytesOf 2 0 ++ bytesOf 1 1 ++
            placedPartBytes c (s.lane l).nextSerial d.format 0 1 (field f.body 7 1) ++
            ([1] ++ bytesOf 1 x.val ++ bytesOf 3 y.serial ++ [1] ++ [if z.state = .queued then 1 else 0]) ++
            List.replicate 5 0 ++ ([1] ++ bytesOf 1 c.val ++ bytesOf 3 (s.lane l).nextSerial))) := by
  obtain ⟨-, hdirectory, z, hz, hserial, -⟩ := closeFiche_frame hy .full
  have hne : x ≠ c := by
    rintro rfl
    exact absurd (lowestFree_eq_some_iff.1 hc).1 (by simp [hy])
  have hchoice := choosePlace_closes (d := d) (key := fieldKey f.body 0) hx hy hnofit hsplits hused
  rw [State.placeAfterFull, hc, Option.map_some, placeOnNew_eq, lane_closeFiche hy] at hchoice
  refine ⟨z, hz, exec_place_of_choice h hchoice hdirectory ?_⟩
  simp only [Placement.bytes, List.flatMap_cons, List.flatMap_nil, List.append_nil,
    closedItem_eq (fiche_opened_of_ne hne hz), hserial,
    openedItem_eq (State.fiche_setContext_self ..), formatOf_of_fiche (State.fiche_setContext_self ..)]
  rfl

/-- A document whole on the fiche opened after the composing one, which carries none, is discarded (R56, second case). -/
theorem exec_place_discarding (h : PlacePasses s f rest cls span l d) (hx : s.composingContext l = some x)
    (hy : s.fiche x = some y) (hnofit : NoFit y span (field f.body 7 1)) (hsplits : ¬Splits y span)
    (hempty : y.indexUsed = 0) (hc : (s.setContext x none).lowestFree = some c) : exec .place s = .next
      ((s.conclude { ((s.setContext x none).setNextSerial y.lane ((y.serial + 1) % 1000000)).setContext c
          (some (freshFiche l d y.serial (fieldKey f.body 0) span 1 (field f.body 7 1))) with
        directory := insertRecord (placedRecord f cls span l
          [⟨c, y.serial, 0, 1, field f.body 7 1⟩]) s.directory }).answered f rest .ok
        (bytesOf 6 (fieldKey f.body 0).toNat ++ bytesOf 1 l.val ++ bytesOf 2 0 ++ bytesOf 1 1 ++
          placedPartBytes c y.serial d.format 0 1 (field f.body 7 1) ++ List.replicate 7 0 ++
          ([1] ++ bytesOf 1 x.val ++ bytesOf 3 y.serial) ++ ([1] ++ bytesOf 1 c.val ++ bytesOf 3 y.serial))) := by
  obtain ⟨y', hy', -, hlane⟩ := fiche_of_composingContext hx
  obtain rfl : y = y' := Option.some.inj (hy.symm.trans hy')
  subst hlane
  have hfreed : s.freeEmptyFiche x = (s.setContext x none).setNextSerial y.lane y.serial := by
    simp only [State.freeEmptyFiche, hy]
  have hfree : ((s.setContext x none).setNextSerial y.lane y.serial).lowestFree = some c := hc
  have hchoice := choosePlace_discards (d := d) (key := fieldKey f.body 0) hx hy hnofit hsplits hempty
  rw [State.placeAfterDiscard, hfreed, hfree, Option.map_some, placeOnNew_eq, lane_setNextSerial_self,
    setNextSerial_setNextSerial] at hchoice
  refine exec_place_of_choice h hchoice rfl ?_
  simp only [Placement.bytes, List.flatMap_cons, List.flatMap_nil, List.append_nil,
    openedItem_eq (State.fiche_setContext_self ..), formatOf_of_fiche (State.fiche_setContext_self ..)]
  rfl

end

/-- Settles O21: what closing leaves, then PLACE on the fiche opened at once, after a FULL close and after a discard. -/
theorem placeOpensFicheForWholeDocument : Obligations.PlaceOpensFicheForWholeDocument := by
  refine ⟨fun _ _ _ _ _ _ _ => rfl, fun s x y k hy => ⟨closeFiche_complete hy k, closeFiche_waits hy k,
    closeFiche_givesUp hy k⟩, fun s f rest cls span l d c h => ⟨exec_place_fresh h, fun x y hx hy hroom => ?_⟩⟩
  rw [← indexEntryFree_iff] at hroom
  have hnofit : NoFit y span (field f.body 7 1) := hroom.imp eq_false_of_ne_true And.right
  have hsplits : ¬Splits y span := by
    rintro ⟨hallow, htail, hentry⟩
    rcases hroom with hnone | ⟨hkeep | hshort, -⟩
    · exact hnone hentry
    · exact absurd (hkeep.symm.trans hallow) (by decide)
    · omega
  exact ⟨exec_place_closing h hx hy hnofit hsplits, exec_place_discarding h hx hy hnofit hsplits⟩

end Sys2Proof.Machine
end

section
/-! SUPPORT. PLACE that splits at the composing fiche's tail (R54, R55). -/
namespace Sys2Proof.Machine

section
variable {s : State} {f : Frame} {rest : List Frame} {cls : Fin 16} {span : Span} {l : LaneId} {d : LaneDef} {c x : CtxId}
  {y : Fiche} {t : Nat}

/-- Pages 1 to t in the tail of the fiche closed SPLIT, the others on the fiche opened after it (R55). -/
theorem exec_place_splitting (h : PlacePasses s f rest cls span l d) (hx : s.composingContext l = some x)
    (hy : s.fiche x = some y) (hc : s.lowestFree = some c) (hnofit : NoFit y span (field f.body 7 1))
    (ht : t = tailPages y.cells (usableCells y.format y.k) span.cells) (hsplits : Splits y span) :
    ∃ u z, u = (s.setContext x (some { y with
        cells := occupyRun y.cells (fieldKey f.body 0) span (tailStart y.cells (usableCells y.format y.k) span.cells) 1 t
        indexUsed := y.indexUsed + 1 })).closeFiche x .split ∧ u.fiche x = some z ∧
      exec .place s = .next
        ((s.conclude { (u.setNextSerial l (((s.lane l).nextSerial + 1) % 1000000)).setContext c
            (some (freshFiche l d (s.lane l).nextSerial (fieldKey f.body 0) span (t + 1) (field f.body 7 1 - t))) with
          directory := insertRecord (placedRecord f cls span l
            [⟨x, y.serial, tailStart y.cells (usableCells y.format y.k) span.cells, 1, t⟩,
             ⟨c, (s.lane l).nextSerial, 0, t + 1, field f.body 7 1 - t⟩]) s.directory }).answered f rest .ok
          (bytesOf 6 (fieldKey f.body 0).toNat ++ bytesOf 1 l.val ++ bytesOf 2 0 ++ bytesOf 1 2 ++
            (placedPartBytes x y.serial y.format (tailStart y.cells (usableCells y.format y.k) span.cells) 1 t ++
              placedPartBytes c (s.lane l).nextSerial d.format 0 (t + 1) (field f.body 7 1 - t)) ++
            ([1] ++ bytesOf 1 x.val ++ bytesOf 3 y.serial ++ [2] ++ [if z.state = .queued then 1 else 0]) ++
            List.replicate 5 0 ++ ([1] ++ bytesOf 1 c.val ++ bytesOf 3 (s.lane l).nextSerial))) := by
  have hne : x ≠ c := by
    rintro rfl
    exact absurd (lowestFree_eq_some_iff.1 hc).1 (by simp [hy])
  have hchoice := choosePlace_splits (d := d) (key := fieldKey f.body 0) hx hy hnofit hsplits
  have hplaced := State.fiche_setContext_self s x (some { y with
    cells := occupyRun y.cells (fieldKey f.body 0) span (tailStart y.cells (usableCells y.format y.k) span.cells) 1 t
    indexUsed := y.indexUsed + 1 })
  obtain ⟨-, hdirectory, z, hz, hserial, hformat⟩ := closeFiche_frame hplaced .split
  rw [State.placeSplit, hc, Option.map_some, ← ht] at hchoice
  dsimp only at hchoice
  rw [placePart_of_fiche hy, placeOnNew_eq, lane_closeFiche hplaced] at hchoice
  refine ⟨_, z, rfl, hz, exec_place_of_choice h hchoice hdirectory ?_⟩
  simp only [Placement.bytes, List.flatMap_cons, List.flatMap_nil, List.append_nil,
    closedItem_eq (fiche_opened_of_ne hne hz), hserial, formatOf_of_fiche (fiche_opened_of_ne hne hz), hformat,
    openedItem_eq (State.fiche_setContext_self ..), formatOf_of_fiche (State.fiche_setContext_self ..)]
  rfl

end

/-- Settles O22: the tail read off the highest cell in use, and the placement in the tail and on the fiche opened. -/
theorem placeSplitsAtTail : Obligations.PlaceSplitsAtTail := by
  refine ⟨fun cells usable span hlength => ⟨fun hfree => tailStart_allFree hfree span, fun j hj hused hafter => ?_, rfl⟩,
    fun s f rest cls span l d x c y t h hx hy hc hallow hentry ht hpages hfull => ?_⟩
  · have hcell := List.getElem?_eq_getElem (hj.trans_le hlength)
    rw [tailStart_eq hj hcell (fun he => hused (hcell.trans (congrArg some he))) hafter, roundUp_span]
  · exact exec_place_splitting h hx hy hc (.inr hfull) ht ⟨hallow, ht ▸ hpages, indexEntryFree_iff.2 hentry⟩

end Sys2Proof.Machine
end

section
/-! SUPPORT. READ FICHE: the counts of a cell map, the bytes of a cell, and the summary (R68, R69). -/
namespace Sys2Proof.Machine

/-! ## The cell map by kind -/

theorem isIndex_iff {e : Cell} : e.isIndex = true ↔ e = .index := by
  cases e <;> simp [Cell.isIndex]

theorem mem_entries_iff {x : Fiche} {o : Occupied} : o ∈ x.entries ↔ .occupied o ∈ x.cells := by
  simp [Fiche.entries, List.mem_filterMap, entry_eq_some_iff]

/-- Every cell is OCCUPIED, FREE or INDEX. -/
theorem countCells (cells : List Cell) : (cells.filterMap Cell.entry).length + cells.countP Cell.isFree +
    cells.countP Cell.isIndex = cells.length := by
  induction cells with
  | nil => rfl
  | cons e es ih =>
    cases e <;> simp [List.filterMap_cons, List.countP_cons, Cell.entry, Cell.isFree, Cell.isIndex] <;> omega

/-! ## Items of the reply -/

theorem occupiedBytes_eq (o : Occupied) : Cell.bytes (.occupied o) = [2] ++ bytesOf 6 o.key.toNat ++ bytesOf 1 o.page ++
    (match o.half with
      | .whole => ([0] : List Byte)
      | .left => [1]
      | .right => [2]) ++
    (match o.image with
      | .awaiting => ([0] : List Byte)
      | .present => [1]
      | .missing => [2]
      | .damaged => [3]) ++
    (match o.buffer with
      | none => ([0, 0, 0] : List Byte)
      | some b => [1] ++ bytesOf 2 b) ++
    [if o.cropped then 1 else 0] ++ [if o.saturated then 1 else 0] := by
  obtain ⟨key, page, half, image, buffer, cropped, saturated⟩ := o
  cases half <;> cases image <;> cases buffer <;> rfl

section
variable (x : Fiche)

theorem causeItem_eq : mayBeAbsent 1 (if x.state = .composing then none else x.cause.map fun c => bytesOf 1 c.code) =
    match x.cause with
    | some cause => if x.state = .composing then [0, 0] else 1 :: bytesOf 1 cause.code
    | none => [0, 0] := by
  cases x.cause with
  | none => rw [Option.map_none, ite_self]; rfl
  | some cause => split <;> rfl

theorem timerItem_eq : mayBeAbsent 1 (if x.state = .closing then x.timer.map (bytesOf 1) else none) =
    match x.timer with
    | some n => if x.state = .closing then 1 :: bytesOf 1 n else [0, 0]
    | none => [0, 0] := by
  cases x.timer with
  | none => rw [Option.map_none, ite_self]; rfl
  | some n => split <;> rfl

theorem cellsDoneItem_eq : mayBeAbsent 2 (if x.state = .exposing then some (bytesOf 2 x.cellsDone) else none) =
    if x.state = .exposing then 1 :: bytesOf 2 x.cellsDone else [0, 0, 0] := by
  split <;> rfl

end

/-! ## READ FICHE -/

section
variable {f : Frame} {s : State} {c : CtxId} {x : Fiche}

theorem readFiche_noContext (h : 8 ≤ field f.body 0 1) : readFiche f s = s.refuse .malformed := by
  simp only [readFiche, ctxOf_eq_none_iff.2 h]

theorem readFiche_free (hc : field f.body 0 1 = c.val) (h : s.fiche c = none) : readFiche f s = (s, some (.ok, [0])) := by
  simp only [readFiche, ctxOf_eq_some_iff.2 hc, h]

theorem readFiche_outOfRange (hc : field f.body 0 1 = c.val) (h : s.fiche c = some x)
    (hrange : x.format.cells < field f.body 1 2 + field f.body 3 2) : readFiche f s = s.refuse .malformed := by
  simp only [readFiche, ctxOf_eq_some_iff.2 hc, h, if_pos hrange]

theorem readFiche_held (hc : field f.body 0 1 = c.val) (h : s.fiche c = some x)
    (hrange : field f.body 1 2 + field f.body 3 2 ≤ x.format.cells) {t : State} {parts : List Byte}
    (hparts : s.countByte x.indexUsed = (parts, t)) : readFiche f s = (t, some (.ok,
      x.summaryBytes parts ++ bytesOf 2 (field f.body 3 2) ++
        ((x.cells.drop (field f.body 1 2)).take (field f.body 3 2)).flatMap Cell.bytes)) := by
  simp only [readFiche, ctxOf_eq_some_iff.2 hc, h, if_neg (not_lt.2 hrange), hparts]

end

theorem cellCounts_eq (x : Fiche) : x.cells.countP Cell.isFree = x.cells.countP (fun e => e = .free) ∧
    x.cells.countP Cell.isIndex = x.cells.countP (fun e => e = .index) ∧
    (∀ o, o ∈ x.entries ↔ .occupied o ∈ x.cells) ∧
    x.entries.length + x.cells.countP Cell.isFree + x.cells.countP Cell.isIndex = x.cells.length ∧
    (∀ image, x.countImages image = x.entries.countP fun o => o.image = image) ∧
    x.buffers = x.entries.filterMap (·.buffer) := by
  refine ⟨?_, ?_, fun _ => mem_entries_iff, countCells x.cells, fun image => ?_, rfl⟩
  · exact List.countP_congr fun e _ => by simp [isFree_iff]
  · exact List.countP_congr fun e _ => by simp [isIndex_iff]
  · exact List.countP_congr fun o _ => by simp

/-- Settles O26: counts by kind over the cell map, and the reply of READ FICHE item by item. -/
theorem readFicheReportsContext : Obligations.ReadFicheReportsContext := by
  refine ⟨cellCounts_eq, rfl, ⟨rfl, rfl, occupiedBytes_eq⟩, fun s f rest hx => ⟨fun h => ?_, fun c hc =>
    ⟨fun h => ?_, fun x h => ⟨fun hrange => ?_, fun hrange => ?_⟩⟩⟩⟩
  · exact execute_answered hx (readFiche_noContext h)
  · exact execute_answered hx (readFiche_free hc h)
  · exact execute_answered hx (readFiche_outOfRange hc h hrange)
  · obtain ⟨parts, hsmall, hcount⟩ := countByte_eq s x.indexUsed
    refine ⟨parts, hsmall, (execute_answered hx (readFiche_held hc h hrange hcount)).trans ?_⟩
    unfold Fiche.summaryBytes
    rw [causeItem_eq, timerItem_eq, cellsDoneItem_eq]
    rfl

end Sys2Proof.Machine
end

section
/-! SUPPORT. The ends of a sheet: CUT_COMPLETION, SPOIL_COMPLETION (R163, R177), and the soft reset (R153, R178, R206). -/
namespace Sys2Proof.Machine

/-! ## A sheet delivered -/

/-- The gate after a sheet is delivered: IDLE, its curves activated, the standby timer fresh when the lamp is READY. -/
theorem sheetDelivered_eq (g : Gate) : g.sheetDelivered = { g with
    state := .idle, step := none
    standby := if g.lamp = .ready then some (60 * if g.standbyPeriod = 0 then 90 else g.standbyPeriod) else none
    curves := g.curves.map fun k =>
      if k.pendingFlag then { k with active := k.pendingCopy, pendingFlag := false } else k } := rfl

section
variable {s : State}

theorem exec_cutCompletion_eq {c : CtxId} {x : Fiche} (hcut : s.gate.state = .cut c) (hx : s.fiche c = some x) :
    exec .cutCompletion s = .next (s.conclude (State.stallTest
      { ((s.setContext c (some x.expose)).setLaneFlag x.lane .exposed).settleFences c .exposed with
        gate := s.gate.sheetDelivered })) := by
  change execCutCompletion s = _
  simp only [execCutCompletion, hcut, hx]
  rfl

theorem exec_cutCompletion_of_noCut (h : ∀ c, s.gate.state ≠ .cut c) : exec .cutCompletion s = .next s := by
  change execCutCompletion s = _
  unfold execCutCompletion
  split
  next c hcut => exact absurd hcut (h c)
  all_goals rfl

theorem exec_spoilCompletion_eq (hspoil : s.gate.state = .spoil) :
    exec .spoilCompletion s = .next (s.conclude { s with gate := s.gate.sheetDelivered }) := by
  change execSpoilCompletion s = _
  simp only [execSpoilCompletion, hspoil]

theorem exec_spoilCompletion_of_noSpoil (h : s.gate.state ≠ .spoil) : exec .spoilCompletion s = .next s := by
  change execSpoilCompletion s = _
  unfold execSpoilCompletion
  split
  next hspoil => exact absurd hspoil h
  all_goals rfl

end

/-- Settles O44: either cut delivers its sheet by `sheetDelivered`, and does nothing in any other state of the gate. -/
theorem cutAndSpoilDeliverSheets : Obligations.CutAndSpoilDeliverSheets := by
  refine ⟨fun s c x hcut hx => ?_, fun s hspoil => ?_, fun s => exec_cutCompletion_of_noCut,
    fun s => exec_spoilCompletion_of_noSpoil, fun l => ⟨rfl, rfl, rfl, rfl⟩⟩
  · rw [exec_cutCompletion_eq hcut hx, sheetDelivered_eq]
    rfl
  · rw [exec_spoilCompletion_eq hspoil, sheetDelivered_eq]

/-! ## The soft reset -/

theorem abortedReply_eq (k : PendingFence) : k.abortedReply = ⟨k.code, k.sequence, .aborted,
    [k.tag] ++ bytesOf 1 k.members.length ++ bytesOf 1 (k.members.countP fun m => m.outcome != none)⟩ := by
  have hsettled : (k.members.countP fun m => m.outcome.isSome) = k.members.countP fun m => m.outcome != none :=
    List.countP_congr fun m _ => by simp [Option.isSome_iff_ne_none]
  rw [PendingFence.abortedReply, hsettled]
  rfl

/-- The reset of the Arbiter activates a pending table and puts the pointer at 0 (R153). -/
theorem arbiterSoftReset_eq (a : Arbiter) : a.softReset =
    { a with active := if a.pendingFlag then a.pendingTable else a.active, pendingFlag := false, pointer := 0 } := by
  obtain ⟨active, pendingTable, pendingFlag, pointer, lastLane⟩ := a
  cases pendingFlag <;> rfl

theorem bit_inMotion (i : Intake) : bit i.inMotion = [if i = .ready [] then 0 else 1] := by
  match i with
  | .ready [] | .ready (_ :: _) | .stalled _ | .receiving _ _ _ _ _ | .discarding _ _ _ => simp [Intake.inMotion, bit]

/-- The states of the gate in which it exposes a context (R154). -/
theorem underExposure_eq_some_iff {g : GateState} {c : CtxId} : g.underExposure = some c ↔
    g = .advance c ∨ g = .title c ∨ (∃ n, g = .cells c n) ∨ (∃ n list, g = .index c n list) ∨ g = .cut c := by
  cases g <;> simp [GateState.underExposure]

theorem underExposure_eq_none_iff {g : GateState} : g.underExposure = none ↔ g = .idle ∨ g = .spoil ∨ g = .stopped := by
  cases g <;> simp [GateState.underExposure]

section
variable {s : State}

theorem softResetGate_eq_self (h : s.gate.state.underExposure = none) : s.softResetGate = s := by
  simp only [State.softResetGate, h]

theorem softResetGate_of_exposure {c : CtxId} {x : Fiche} (h : s.gate.state.underExposure = some c)
    (hx : s.fiche c = some x) : s.softResetGate =
      { (s.setContext c (some { x with state := .queued, cellsDone := 0 })).setQueue x.lane (c :: s.queue x.lane) with
        port := { s.port with counters := { s.port.counters with
          spoiledSheets := min 65535 (s.port.counters.spoiledSheets + 1) } }
        gate := { s.gate with state := .spoil, step := some .spoilCut, standby := none } } := by
  have hx : s.countSpoiled.fiche c = some x := hx
  simp only [State.softResetGate, h, putBack_of_fiche hx]
  rfl

theorem softResetGate_keeps : s.softResetGate.port.fences = s.port.fences ∧
    s.softResetGate.port.outbound = s.port.outbound ∧ s.softResetGate.arbiter = s.arbiter := by
  unfold State.softResetGate
  split
  next c _ =>
    unfold State.putBack
    split <;> exact ⟨rfl, rfl, rfl⟩
  next => exact ⟨rfl, rfl, rfl⟩

/-- The reply of RESET names the context that was under exposure (R206). -/
theorem exposureItem_eq (g : GateState) : mayBeAbsent 1 (g.underExposure.map fun c => bytesOf 1 c.val) =
    match g.underExposure with
    | none => [0, 0]
    | some c => [1] ++ bytesOf 1 c.val := by
  cases g.underExposure <;> rfl

theorem softReset_eq {f : Frame} : softReset f s = (s.conclude { s.softResetGate with
      port := { s.softResetGate.port with
        fences := []
        outbound := s.port.outbound ++ s.port.fences.map fun (k : PendingFence) =>
          ⟨k.code, k.sequence, .aborted, [k.tag] ++ bytesOf 1 k.members.length ++
            bytesOf 1 (k.members.countP fun m => m.outcome != none)⟩ }
      intake := .ready []
      arbiter := { s.arbiter with
        active := if s.arbiter.pendingFlag then s.arbiter.pendingTable else s.arbiter.active
        pendingFlag := false, pointer := 0 } },
    some (.ok, bytesOf 1 s.port.fences.length ++ [if s.intake = .ready [] then 0 else 1] ++
      match s.gate.state.underExposure with
      | none => [0, 0]
      | some c => [1] ++ bytesOf 1 c.val)) := by
  obtain ⟨hfences, houtbound, harbiter⟩ := softResetGate_keeps (s := s)
  have hreplies := funext abortedReply_eq
  simp only [softReset, State.abortFences, hfences, houtbound, harbiter, arbiterSoftReset_eq, bit_inMotion,
    exposureItem_eq, hreplies]

end

/-- Settles O52: the gate's part by whether a context is under exposure; the rest is the same for every state of it. -/
theorem softResetStopsWhatMoves : Obligations.SoftResetStopsWhatMoves := by
  intro s base f rest hx hrest hexposure
  have hbase : s.softResetGate = base := by
    cases h : s.gate.state.underExposure with
    | none => rw [softResetGate_eq_self h, hrest (underExposure_eq_none_iff.1 h)]
    | some c =>
      obtain ⟨x, hfiche, rfl⟩ := hexposure c (underExposure_eq_some_iff.1 h)
      exact softResetGate_of_exposure h hfiche
  subst hbase
  exact execute_answered hx softReset_eq

end Sys2Proof.Machine
end

section
/-! SUPPORT. Image Intake: the bytes it takes (R72 to R76), the buffers it and the cells hold (R95), and the stall test (R98). -/
namespace Sys2Proof.Machine

/-! ## Bytes taken and refused -/

section
variable {s : State}

theorem holdLine_iff : s.holdLine = true ↔ s.lines.resetLine = true ∨ ∃ m, s.intake = .stalled m := by
  cases h : s.intake <;> simp [State.holdLine, h]

/-- No byte is taken under hold or image-abort, and every byte is taken otherwise (R72). -/
theorem takesImageBytes_iff : s.takesImageBytes = true ↔
    ¬(s.lines.resetLine = true ∨ s.lines.abortLine = true ∨ ∃ m, s.intake = .stalled m) := by
  rw [State.takesImageBytes, Bool.and_eq_true, Bool.not_eq_true', Bool.not_eq_true', ← Bool.not_eq_true,
    ← Bool.not_eq_true, holdLine_iff]
  tauto

theorem takesImageBytes_of_lines (hreset : s.lines.resetLine = false) (habort : s.lines.abortLine = false)
    (hi : ∀ m, s.intake ≠ .stalled m) : s.takesImageBytes = true := by
  rw [takesImageBytes_iff, hreset, habort]
  simpa using hi

section
variable (h : s.takesImageBytes = false) (byte : Byte)
include h

theorem exec_imageByteTaken_refused : exec (.imageByteTaken byte) s = .next s := by
  change execImageByteTaken byte s = _
  simp [execImageByteTaken, h]

theorem exec_imageHeader_refused : exec (.imageHeader byte) s = .next s := by
  change execImageHeader byte s = _
  cases hi : s.intake <;> simp [execImageHeader, hi, h]

theorem exec_imageEnd_refused : exec (.imageEnd byte) s = .next s := by
  change execImageEnd byte s = _
  cases hi : s.intake <;> simp [execImageEnd, hi, h]

theorem exec_discardingEnd_refused : exec (.discardingEnd byte) s = .next s := by
  change execDiscardingEnd byte s = _
  cases hi : s.intake <;> simp [execDiscardingEnd, hi, h]

end

/-! ## Bytes of a header, of a line and of a dropped raster -/

section
variable (hreset : s.lines.resetLine = false) (habort : s.lines.abortLine = false) (byte : Byte)
include hreset habort

theorem exec_imageByteTaken_header {taken : List Byte} (hi : s.intake = .ready taken) (hlen : taken.length < 11) :
    exec (.imageByteTaken byte) s = .next { s with intake := .ready (taken ++ [byte]) } := by
  have ht := takesImageBytes_of_lines hreset habort (by simp [hi])
  change execImageByteTaken byte s = _
  simp [execImageByteTaken, ht, hi, hlen]

theorem exec_imageByteTaken_inLine {m : Matched} {buffers : List Nat} {lines : Nat} {line : List Byte} {sums : List Nat}
    (hi : s.intake = .receiving m buffers lines line sums) (hlen : line.length + 1 < m.header.lineBytes) :
    exec (.imageByteTaken byte) s = .next { s with intake := .receiving m buffers lines (line ++ [byte]) sums } := by
  have ht := takesImageBytes_of_lines hreset habort (by simp [hi])
  change execImageByteTaken byte s = _
  simp [execImageByteTaken, ht, hi, hlen]

theorem exec_imageByteTaken_endsLine {m : Matched} {buffers : List Nat} {lines : Nat} {line : List Byte} {sums : List Nat}
    (hi : s.intake = .receiving m buffers lines line sums) (hlen : m.header.lineBytes ≤ line.length + 1)
    (hlines : lines + 1 < m.header.height) :
    exec (.imageByteTaken byte) s = .next { s with
      intake := .receiving m buffers (lines + 1) [] (takeLine m buffers lines (line ++ [byte]) sums s.memory).1
      memory := (takeLine m buffers lines (line ++ [byte]) sums s.memory).2 } := by
  have ht := takesImageBytes_of_lines hreset habort (by simp [hi])
  change execImageByteTaken byte s = _
  simp [execImageByteTaken, ht, hi, Nat.not_lt.2 hlen, hlines]

theorem exec_imageByteTaken_dropped {h : Header} {why : Rejection} {toDrop : Nat}
    (hi : s.intake = .discarding h why toDrop) (hmore : 1 < toDrop) :
    exec (.imageByteTaken byte) s = .next { s with intake := .discarding h why (toDrop - 1) } := by
  have ht := takesImageBytes_of_lines hreset habort (by simp [hi])
  change execImageByteTaken byte s = _
  simp [execImageByteTaken, ht, hi, hmore]

theorem exec_discardingEnd_last {h : Header} {why : Rejection} (hi : s.intake = .discarding h why 1) :
    exec (.discardingEnd byte) s = .next { s with intake := .ready [] } := by
  have ht := takesImageBytes_of_lines hreset habort (by simp [hi])
  change execDiscardingEnd byte s = _
  simp [execDiscardingEnd, ht, hi]

end

theorem intakeBuffers_eq_nil {i : Intake} (h : ∀ m bs n l g, i ≠ .receiving m bs n l g) : i.buffers = [] := by
  cases i with
  | receiving m bs n l g => exact absurd rfl (h m bs n l g)
  | ready | stalled | discarding => rfl

end

/-- Settles O35: the last dropped byte, the abort line and its release, and the buffers of a transfer. -/
theorem transfersEndByDropOrAbort : Obligations.TransfersEndByDropOrAbort :=
  ⟨fun _ byte _ _ hreset habort hi => exec_discardingEnd_last hreset habort byte hi, fun _ => rfl, fun _ => rfl,
    fun _ h => intakeBuffers_eq_nil h, fun _ _ _ _ _ => rfl⟩

/-- Settles O32: the hold line, the bytes refused, and each kind of byte taken by IMAGE_BYTE_TAKEN. -/
theorem imageBytesFillHeaderAndLines : Obligations.ImageBytesFillHeaderAndLines := by
  refine ⟨fun s => holdLine_iff, fun h => rfl, fun s byte h => ?_, fun s byte hreset habort => ⟨?_, ?_, ?_⟩⟩
  · have ht : s.takesImageBytes = false := Bool.eq_false_iff.2 fun ht => takesImageBytes_iff.1 ht h
    exact ⟨exec_imageByteTaken_refused ht byte, exec_imageHeader_refused ht byte, exec_imageEnd_refused ht byte,
      exec_discardingEnd_refused ht byte⟩
  · exact fun taken hi => exec_imageByteTaken_header hreset habort byte hi
  · exact fun m buffers lines line sums hi => ⟨exec_imageByteTaken_inLine hreset habort byte hi,
      exec_imageByteTaken_endsLine hreset habort byte hi⟩
  · exact fun h why toDrop hi => exec_imageByteTaken_dropped hreset habort byte hi

/-! ## The pool and the stall test -/

section
variable {s : State}

theorem poolHas_iff {n : Nat} : s.poolHas n = true ↔ n ≤ s.freePool.length := by
  simp [State.poolHas]

theorem stallTest_of_pool {m : Matched} (hi : s.intake = .stalled m) (hpool : m.span.cells ≤ s.freePool.length) :
    s.stallTest = s.reserve m := by
  simp only [State.stallTest, hi, if_pos (poolHas_iff.2 hpool)]

theorem stallTest_of_noPool {m : Matched} (hi : s.intake = .stalled m) (hpool : s.freePool.length < m.span.cells) :
    s.stallTest = s := by
  simp only [State.stallTest, hi, if_neg (mt poolHas_iff.1 (Nat.not_le.2 hpool))]

theorem stallTest_of_notStalled (h : ∀ m, s.intake ≠ .stalled m) : s.stallTest = s := by
  rcases stallTest_cases s with hs | ⟨m, hi, -, -⟩
  · exact hs
  · exact absurd hi (h m)

theorem mem_intakeBuffers_iff {i : Intake} {b : Nat} : b ∈ i.buffers ↔
    ∃ m buffers lines line sums, i = .receiving m buffers lines line sums ∧ b ∈ buffers := by
  cases i <;> simp [Intake.buffers]

theorem mem_ficheBuffers_iff {x : Fiche} {b : Nat} : b ∈ x.buffers ↔
    ∃ (i : Nat) (o : Occupied), x.cells[i]? = some (.occupied o) ∧ o.buffer = some b := by
  simp only [Fiche.buffers, List.mem_filterMap, mem_entries_iff]
  simp only [List.mem_iff_getElem?]
  constructor
  · rintro ⟨o, ⟨i, hi⟩, hb⟩
    exact ⟨i, o, hi, hb⟩
  · rintro ⟨i, o, hi, hb⟩
    exact ⟨o, ⟨i, hi⟩, hb⟩

theorem mem_contexts_iff {x : Option Fiche} : x ∈ s.composer.contexts.toList ↔ ∃ c : CtxId, s.fiche c = x := by
  rw [Vector.mem_toList_iff, Vector.mem_iff_getElem]
  constructor
  · rintro ⟨i, hi, hx⟩
    exact ⟨⟨i, hi⟩, hx⟩
  · rintro ⟨c, hx⟩
    exact ⟨c.val, c.isLt, hx⟩

theorem mem_cellBuffers_iff {b : Nat} : b ∈ s.cellBuffers ↔
    ∃ (c : CtxId) (x : Fiche) (i : Nat) (o : Occupied), s.fiche c = some x ∧
      x.cells[i]? = some (.occupied o) ∧ o.buffer = some b := by
  rw [State.cellBuffers, List.mem_flatMap]
  constructor
  · rintro ⟨x, hx, hb⟩
    obtain ⟨c, hc⟩ := mem_contexts_iff.1 hx
    cases x with
    | none => cases hb
    | some x =>
      obtain ⟨i, o, hi, ho⟩ := mem_ficheBuffers_iff.1 hb
      exact ⟨c, x, i, o, hc, hi, ho⟩
  · rintro ⟨c, x, i, o, hc, hi, ho⟩
    exact ⟨some x, mem_contexts_iff.2 ⟨c, hc⟩, mem_ficheBuffers_iff.2 ⟨i, o, hi, ho⟩⟩

theorem mem_heldBuffers_iff {b : Nat} : b ∈ s.heldBuffers ↔
    (∃ m buffers lines line sums, s.intake = .receiving m buffers lines line sums ∧ b ∈ buffers) ∨
      ∃ (c : CtxId) (x : Fiche) (i : Nat) (o : Occupied), s.fiche c = some x ∧
        x.cells[i]? = some (.occupied o) ∧ o.buffer = some b := by
  rw [State.heldBuffers, List.mem_append, mem_intakeBuffers_iff, mem_cellBuffers_iff]

theorem extent_setExtent {m : Memory} (h : m.wf = true) (buffer b : Nat) (e : Option Format) :
    (m.setExtent buffer e).extent b = if b = buffer then e else m.extent b := by
  obtain ⟨-, -, hextents⟩ := Memory.wf_iff.1 h
  exact sparseGet_sparsePut hextents

end

/-- Settles O6: a stalled transfer by whether the pool holds its buffers, any other state, and what the pool is. -/
theorem stallTestTakesLowestBuffers : Obligations.StallTestTakesLowestBuffers :=
  ⟨fun _ _ hi hpool => stallTest_of_pool hi hpool, fun _ _ hi hpool => stallTest_of_noPool hi hpool,
    fun _ h => stallTest_of_notStalled h, fun _ => rfl, fun _ _ => mem_heldBuffers_iff,
    fun _ buffer e hm => ⟨rfl, fun b => extent_setExtent hm buffer b e⟩⟩

end Sys2Proof.Machine
end

section
/-! SUPPORT. Image Intake: the header's fields (R75), the judgment of a page (R76, R78, R79), and what a judged header and the
end of a transfer do (R81, R87 to R90). -/
namespace Sys2Proof.Machine

/-! ## The header -/

/-- Most significant byte first: the last byte counts once. -/
theorem numberOf_append (bytes : List Byte) (b : Byte) : numberOf (bytes ++ [b]) = 256 * numberOf bytes + b.toNat := by
  simp [numberOf]

/-- The fields of the twelve header bytes (R75). -/
theorem headerOf_fields {b0 b1 b2 b3 b4 b5 b6 b7 b8 b9 b10 b11 : Byte} {h : Header}
    (hh : h = headerOf [b0, b1, b2, b3, b4, b5, b6, b7, b8, b9, b10, b11]) :
    h.key.toNat = b0.toNat * 2 ^ 40 + b1.toNat * 2 ^ 32 + b2.toNat * 2 ^ 24 + b3.toNat * 2 ^ 16 + b4.toNat * 2 ^ 8 +
      b5.toNat ∧
    h.page = b6.toNat ∧ h.depth = b7.toNat ∧ h.width = b8.toNat * 256 + b9.toNat ∧
    h.height = b10.toNat * 256 + b11.toNat := by
  subst hh
  refine ⟨?_, ?_, ?_, ?_, ?_⟩
  · have hkey : numberOf [b0, b1, b2, b3, b4, b5] = b0.toNat * 2 ^ 40 + b1.toNat * 2 ^ 32 + b2.toNat * 2 ^ 24 +
        b3.toNat * 2 ^ 16 + b4.toNat * 2 ^ 8 + b5.toNat := by
      simp only [numberOf, List.foldl_cons, List.foldl_nil]
      omega
    change (BitVec.ofNat 48 (numberOf [b0, b1, b2, b3, b4, b5])).toNat = _
    rw [BitVec.toNat_ofNat, hkey]
    exact Nat.mod_eq_of_lt (by omega)
  all_goals simp [headerOf, field, numberOf, Nat.mul_comm]

theorem invalid_iff {h : Header} : h.invalid = true ↔
    h.page = 0 ∨ (h.depth ≠ 1 ∧ h.depth ≠ 8) ∨ h.width = 0 ∨ 8192 < h.width ∨ h.height = 0 ∨ 8192 < h.height := by
  simp [Header.invalid]

theorem not_invalid {h : Header} (hpage : 1 ≤ h.page) (hdepth : h.depth = 1 ∨ h.depth = 8) (hwidth : 1 ≤ h.width)
    (hwidth' : h.width ≤ 8192) (hheight : 1 ≤ h.height) (hheight' : h.height ≤ 8192) : h.invalid = false := by
  rw [← Bool.not_eq_true, invalid_iff]
  omega

/-- A valid header has a raster (R77). -/
theorem rasterBytes_ne_zero {h : Header} (hwidth : 1 ≤ h.width) (hheight : 1 ≤ h.height) : h.rasterBytes ≠ 0 := by
  have hline : 0 < h.lineBytes := by
    unfold Header.lineBytes
    split <;> omega
  exact (Nat.mul_pos hheight hline).ne'

/-! ## The cells of a page -/

/-- The context takes an image for the page: it is COMPOSING, or CLOSING with every cell of the page AWAITING (R78). -/
def TakesImage (x : Fiche) (r : Record) (p : RecordPart) (page : Nat) : Prop :=
  x.state = .composing ∨ (x.state = .closing ∧ ∀ j < r.span.cells, ∃ o,
    x.cells[p.cellOf r.span page + j]? = some (.occupied o) ∧ o.image = .awaiting)

theorem pageAwaiting_iff {x : Fiche} {p : RecordPart} {span : Span} {page : Nat} : pageAwaiting x p span page = true ↔
    ∀ j < span.cells, ∃ o, x.cells[p.cellOf span page + j]? = some (.occupied o) ∧ o.image = .awaiting := by
  have hrun : ∀ j < span.cells, ((x.cells.drop (p.cellOf span page)).take span.cells)[j]? =
      x.cells[p.cellOf span page + j]? := fun j hj => by rw [List.getElem?_take, if_pos hj, List.getElem?_drop]
  have hle : ((x.cells.drop (p.cellOf span page)).take span.cells).length ≤ span.cells := by simp
  simp only [pageAwaiting, Bool.and_eq_true, beq_iff_eq, List.all_eq_true]
  constructor
  · rintro ⟨hcount, hall⟩ j hj
    have hfull : ((x.cells.drop (p.cellOf span page)).take span.cells).length = span.cells :=
      le_antisymm hle (hcount.ge.trans (List.length_filterMap_le ..))
    have hoccupied := List.filterMap_length_eq_length.1 (hcount.trans hfull.symm)
    obtain ⟨e, he⟩ : ∃ e, ((x.cells.drop (p.cellOf span page)).take span.cells)[j]? = some e :=
      ⟨_, List.getElem?_eq_getElem (by omega)⟩
    obtain ⟨o, ho⟩ := Option.isSome_iff_exists.1 (hoccupied e (List.mem_of_getElem? he))
    have hcell : x.cells[p.cellOf span page + j]? = some (.occupied o) := by
      rw [← hrun j hj, he, entry_eq_some_iff.1 ho]
    exact ⟨o, hcell, hall o (mem_entriesOf.2 ⟨_, Nat.le_add_right .., Nat.add_lt_add_left hj _, hcell⟩)⟩
  · intro h
    have hentry : ∀ j : Nat, ∃ o : Occupied, j < span.cells →
        x.cells[p.cellOf span page + j]? = some (.occupied o) ∧ o.image = .awaiting := fun j => by
      by_cases hj : j < span.cells
      · obtain ⟨o, ho⟩ := h j hj
        exact ⟨o, fun _ => ho⟩
      · exact ⟨newEntry 0 span 0 0, fun hj' => absurd hj' hj⟩
    choose o ho using hentry
    rw [entriesOf_eq_map fun j hj => (ho j hj).1]
    refine ⟨by simp, fun o' ho' => ?_⟩
    obtain ⟨j, hj, rfl⟩ := List.mem_map.1 ho'
    exact (ho j (List.mem_range.1 hj)).2

/-! ## The part that holds a page -/

theorem partOf_eq_some {r : Record} {p : RecordPart} {page : Nat} (h : r.partOf page = some p) :
    p ∈ r.parts ∧ p.firstPage ≤ page ∧ page < p.firstPage + p.pages :=
  ⟨List.mem_of_find?_eq_some h, by simpa using List.find?_some h⟩

theorem partOf_eq_none_iff {r : Record} {page : Nat} :
    r.partOf page = none ↔ ∀ q ∈ r.parts, ¬(q.firstPage ≤ page ∧ page < q.firstPage + q.pages) := by
  simp only [Record.partOf, List.find?_eq_none, decide_eq_true_eq]

/-! ## The judgment -/

section
variable {s : State} {key : Key} {page : Nat} {r : Record} {p : RecordPart} {x : Fiche}

theorem judge_orphan (h : s.record key = none ∨ ∃ r, s.record key = some r ∧ r.pageCount < page) :
    s.judge key page = .rejected .orphan := by
  rcases h with h | ⟨r, h, hpage⟩
  · simp only [State.judge, h]
  · simp only [State.judge, h, if_pos hpage]

/-- A page in no part, or on a context that takes no image for it (R79). -/
theorem judge_late (hr : s.record key = some r) (hpage : page ≤ r.pageCount)
    (h : (∀ p ∈ r.parts, ¬(p.firstPage ≤ page ∧ page < p.firstPage + p.pages)) ∨
      ∃ p x, r.partOf page = some p ∧ s.fiche p.ctx = some x ∧ ¬TakesImage x r p page) :
    s.judge key page = .rejected .late := by
  rcases h with h | ⟨p, x, hp, hx, hno⟩
  · simp only [State.judge, hr, if_neg (Nat.not_lt.2 hpage), partOf_eq_none_iff.2 h]
  · rw [TakesImage, ← pageAwaiting_iff] at hno
    simp only [State.judge, hr, if_neg (Nat.not_lt.2 hpage), hp, hx, if_neg hno]

/-- The judgment reads the directory and the cell maps alone, not Page Memory. -/
theorem judge_withMemory (mem : Memory) : State.judge { s with memory := mem } key page = s.judge key page := rfl

theorem judge_matched (hr : s.record key = some r) (hpage : page ≤ r.pageCount) (hp : r.partOf page = some p)
    (hx : s.fiche p.ctx = some x) (h : TakesImage x r p page) : s.judge key page = .matched r p x := by
  rw [TakesImage, ← pageAwaiting_iff] at h
  simp only [State.judge, hr, if_neg (Nat.not_lt.2 hpage), hp, hx, if_pos h]

end

/-- The late context of a statement, as `judge_late` asks for it. -/
theorem not_takesImage {x : Fiche} {r : Record} {p : RecordPart} {page : Nat} (hstate : x.state ≠ .composing)
    (h : ¬(x.state = .closing ∧ ∀ j < r.span.cells, ∃ o,
      x.cells[p.cellOf r.span page + j]? = some (.occupied o) ∧ o.image = .awaiting)) : ¬TakesImage x r p page := by
  rintro (hc | hc)
  · exact hstate hc
  · exact h hc

/-! ## IMAGE_HEADER -/

section
variable {s : State} {h : Header}

theorem judgeHeader_orphan (hj : h.invalid = true ∨ s.judge h.key h.page = .rejected .orphan) :
    s.judgeHeader h = s.discard h .orphan := by
  unfold State.judgeHeader
  split
  · rfl
  next hvalid => simp only [hj.resolve_left hvalid]

theorem judgeHeader_late (hvalid : h.invalid = false) (hj : s.judge h.key h.page = .rejected .late) :
    s.judgeHeader h = s.discard h .late := by
  simp [State.judgeHeader, hvalid, hj]

section
variable {r : Record} {p : RecordPart} {x : Fiche} (hvalid : h.invalid = false)
  (hj : s.judge h.key h.page = .matched r p x)
include hvalid hj

theorem judgeHeader_reserves (hpool : r.span.cells ≤ s.freePool.length) :
    s.judgeHeader h = s.reserve ⟨h, x.format, r.span, figuresOf h x.format r.span⟩ := by
  simp [State.judgeHeader, hvalid, hj, poolHas_iff.2 hpool]

theorem judgeHeader_stalls (hpool : s.freePool.length < r.span.cells) :
    s.judgeHeader h = { s.setFlag poolStallBit with
      intake := .stalled ⟨h, x.format, r.span, figuresOf h x.format r.span⟩ } := by
  have hno : ¬s.poolHas r.span.cells = true := mt poolHas_iff.1 (Nat.not_le.2 hpool)
  simp [State.judgeHeader, hvalid, hj, hno]

end

theorem exec_imageHeader_twelfth {byte : Byte} {taken : List Byte} (hreset : s.lines.resetLine = false)
    (habort : s.lines.abortLine = false) (hi : s.intake = .ready taken) (hlen : taken.length = 11)
    (hh : h = headerOf (taken ++ [byte])) : exec (.imageHeader byte) s = .next (s.judgeHeader h) := by
  have ht := takesImageBytes_of_lines hreset habort (by simp [hi])
  change execImageHeader byte s = _
  simp [execImageHeader, ht, hi, hlen, hh]

end

/-- Settles O33: the part of a page and the header's fields; then each judgment of the header, from `State.judge`. -/
theorem imageHeaderIsJudged : Obligations.ImageHeaderIsJudged := by
  refine ⟨fun r p page => ⟨partOf_eq_some, partOf_eq_none_iff, rfl⟩,
    fun b0 b1 b2 b3 b4 b5 b6 b7 b8 b9 b10 b11 h => headerOf_fields, fun s byte taken h hreset habort hi hlen hh => ?_⟩
  rw [exec_imageHeader_twelfth hreset habort hi hlen hh]
  refine ⟨fun horphan => ?_, fun r hpage hdepth hwidth hwidth' hheight hheight' hr hcount => ?_⟩
  · rw [judgeHeader_orphan]
    · rfl
    · rw [invalid_iff]
      rcases horphan with hv | hv | hv | hv | hv | hv | hnone | habove
      case inr.inr.inr.inr.inr.inr.inl => exact .inr (judge_orphan (.inl hnone))
      case inr.inr.inr.inr.inr.inr.inr => exact .inr (judge_orphan (.inr habove))
      all_goals exact .inl (by tauto)
  have hvalid := not_invalid hpage hdepth hwidth hwidth' hheight hheight'
  refine ⟨fun hlate => ?_, fun p x hp hx htakes => ?_⟩
  · have hj := judge_late hr hcount (hlate.imp_right fun ⟨p, x, hp, hx, hstate, hno⟩ =>
      ⟨p, x, hp, hx, not_takesImage hstate hno⟩)
    rw [judgeHeader_late hvalid hj, State.discard, if_neg (rasterBytes_ne_zero hwidth hheight)]
    rfl
  · have hj := judge_matched hr hcount hp hx htakes
    refine ⟨fun hpool => ?_, fun hpool => ?_⟩
    · rw [judgeHeader_reserves hvalid hj hpool]
      rfl
    · rw [judgeHeader_stalls hvalid hj hpool]
      rfl

/-! ## IMAGE_END -/

theorem attachCells_getElem? (cells : List Cell) (first : Nat) (buffers : List Nat) (cropped : Bool) (i : Nat) :
    (attachCells cells first buffers cropped)[i]? = cells[i]?.map fun e =>
      if first ≤ i ∧ i < first + buffers.length then
        e.modify fun o => { o with buffer := buffers[i - first]?, image := .present, cropped := cropped }
      else e := by
  rw [attachCells, mapCells_getElem?]
  congr 1
  funext e
  by_cases hfirst : first ≤ i
  · by_cases hlast : i < first + buffers.length
    · have hb : buffers[i - first]? = some buffers[i - first] := List.getElem?_eq_getElem (by omega)
      simp only [if_pos hfirst, if_pos (And.intro hfirst hlast), hb]
    · have hb : buffers[i - first]? = none := List.getElem?_eq_none (by omega)
      simp only [if_pos hfirst, if_neg fun h : first ≤ i ∧ i < first + buffers.length => hlast h.2, hb]
  · rw [if_neg hfirst, if_neg fun h => hfirst h.1]

section
variable {s : State} {m : Matched} {buffers : List Nat}

theorem completeIfDone_of_fiche {c : CtxId} {y : Fiche} (h : s.fiche c = some y) :
    s.completeIfDone c = if y.state = .closing ∧ y.countImages .awaiting = 0 then s.queueFiche c else s := by
  simp only [State.completeIfDone, h]

theorem endTransfer_rejected {why : Rejection} (hj : s.judge m.header.key m.header.page = .rejected why) :
    s.endTransfer m buffers = State.reject { s with intake := .ready [] } why := by
  simp only [State.endTransfer, hj]

section
variable {r : Record} {p : RecordPart} {x : Fiche} (hj : s.judge m.header.key m.header.page = .matched r p x)
include hj

/-- The page's fiche or span is no longer the one the header was matched with (R89). -/
theorem endTransfer_mismatched (h : x.format ≠ m.format ∨ r.span ≠ m.span) :
    s.endTransfer m buffers = State.reject { s with intake := .ready [] } .orphan := by
  simp only [State.endTransfer, hj, if_pos h]

/-- The cells take the buffers, the revision rises, and a CLOSING fiche that awaits nothing more is queued (R88, R90). -/
theorem endTransfer_attaches (hformat : x.format = m.format) (hspan : r.span = m.span) {y : Fiche}
    (hy : y = { x with cells := attachCells x.cells (p.cellOf r.span m.header.page) buffers m.figures.cropped }) {u : State}
    (hu : u = { State.setContext { s with intake := .ready [] } p.ctx (some y) with
      directory := s.directory.map fun q => if q.key = r.key then { q with revision := q.revision + 1 } else q }) :
    s.endTransfer m buffers =
      if x.state = .closing ∧ y.countImages .awaiting = 0 then u.queueFiche p.ctx else u := by
  have hsame : ¬(x.format ≠ m.format ∨ r.span ≠ m.span) := not_or.2 ⟨not_not.2 hformat, not_not.2 hspan⟩
  have hend : s.endTransfer m buffers = u.completeIfDone p.ctx := by
    simp only [State.endTransfer, hj, if_neg hsame, hu, hy]
    rfl
  have hfiche : u.fiche p.ctx = some y := hu ▸ State.fiche_setContext_self _ p.ctx (some y)
  have hstate : x.state = y.state := by rw [hy]
  rw [hend, completeIfDone_of_fiche hfiche, hstate]

end

theorem exec_imageEnd_last {byte : Byte} {lines : Nat} {line : List Byte} {sums : List Nat}
    (hreset : s.lines.resetLine = false) (habort : s.lines.abortLine = false)
    (hi : s.intake = .receiving m buffers lines line sums) (hlen : m.header.lineBytes ≤ line.length + 1)
    (hlines : m.header.height ≤ lines + 1) :
    exec (.imageEnd byte) s = .next (s.conclude (State.endTransfer { s with
      memory := writeTransferMargins m buffers (takeLine m buffers lines (line ++ [byte]) sums s.memory).2 } m buffers)) := by
  have ht := takesImageBytes_of_lines hreset habort (by simp [hi])
  change execImageEnd byte s = _
  simp [execImageEnd, ht, hi, hlen, hlines]

end

/-- Settles O34: the entries that take the buffers; then each judgment at the end of the transfer, as for its header. -/
theorem imageEndAttachesOrRejects : Obligations.ImageEndAttachesOrRejects := by
  refine ⟨attachCells_getElem?, fun s byte m buffers lines line sums t hreset habort hi hlen hlines ht => ?_⟩
  rw [exec_imageEnd_last hreset habort hi hlen hlines]
  subst ht
  refine ⟨fun horphan => ?_, fun r hr hcount => ⟨fun hlate => ?_, fun p x hp hx htakes => ?_⟩⟩
  · rw [endTransfer_rejected ((judge_withMemory _).trans (judge_orphan horphan))]
    rfl
  · have hj := judge_late hr hcount (hlate.imp_right fun ⟨p, x, hp, hx, hstate, hno⟩ =>
      ⟨p, x, hp, hx, not_takesImage hstate hno⟩)
    rw [endTransfer_rejected ((judge_withMemory _).trans hj)]
    rfl
  · have hj := judge_matched hr hcount hp hx htakes
    refine ⟨fun hdiffers => ?_, fun hformat hspan y hy u hu => ?_⟩
    · rw [endTransfer_mismatched ((judge_withMemory _).trans hj) hdiffers]
      rfl
    · rw [endTransfer_attaches ((judge_withMemory _).trans hj) hformat hspan hy hu]

end Sys2Proof.Machine
end

section
/-! SUPPORT. Reduction: the figures of a transfer, their bounds (R82, R83), and the source windows (R84). -/
namespace Sys2Proof.Machine

/-! ## The figures -/

theorem targetWidth_pos (f : Format) (span : Span) : 0 < targetWidth f span := by
  cases f <;> cases span <;> decide

theorem cellHeight_pos (f : Format) : 0 < f.cellHeight := by cases f <;> decide

section
variable (h : Header) (f : Format) (span : Span)

theorem figuresOf_step_ge : 256 ≤ (figuresOf h f span).step := by
  simp only [figuresOf]
  omega

theorem figuresOf_step_le : (figuresOf h f span).step ≤ 2048 := min_le_left ..

/-- The block has a column and lies within the target (R83). -/
theorem figuresOf_columns : 1 ≤ (figuresOf h f span).ow ∧
    (figuresOf h f span).ox + (figuresOf h f span).ow ≤ targetWidth f span := by
  have hpos := targetWidth_pos f span
  simp only [figuresOf]
  omega

theorem figuresOf_lines : 1 ≤ (figuresOf h f span).oh ∧
    (figuresOf h f span).oy + (figuresOf h f span).oh ≤ f.cellHeight := by
  have hpos := cellHeight_pos f
  simp only [figuresOf]
  omega

theorem figuresOf_ow_le : (figuresOf h f span).ow ≤ max 1 (h.width * 256 / (figuresOf h f span).step) := min_le_right ..

theorem figuresOf_oh_le : (figuresOf h f span).oh ≤ max 1 (h.height * 256 / (figuresOf h f span).step) := min_le_right ..

end

/-! ## The source windows

A source of n columns (or lines) is shared out among `spots` spots, `spots` being at most the figure of R83. -/

section
variable {step n spots : Nat} (hstep : 256 ≤ step) (hspots : spots ≤ max 1 (n * 256 / step))
include hstep hspots

/-- A spot that is not the first ends, by its step, within the source. -/
theorem spotEnd_le {i : Nat} (hi : i < spots) (hpos : 0 < i) : (i + 1) * step ≤ n * 256 :=
  (Nat.le_div_iff_mul_le (by omega)).1 (by omega)

theorem spotWindow_within (hn : 1 ≤ n) {i : Nat} (hi : i < spots) :
    (spotWindow step n i).1 ≤ (spotWindow step n i).2 ∧ (spotWindow step n i).2 ≤ n - 1 := by
  have hfirst : i * step / 256 ≤ n - 1 := by
    rcases Nat.eq_zero_or_pos i with rfl | hpos
    · simp
    · have hend := spotEnd_le hstep hspots hi hpos
      rw [Nat.add_one_mul] at hend
      omega
  simp only [spotWindow]
  omega

/-- Each window begins where the one before it ends. -/
theorem spotWindow_adjacent {i : Nat} (hi : i + 1 < spots) :
    (spotWindow step n i).2 + 1 = (spotWindow step n (i + 1)).1 := by
  have hend := spotEnd_le hstep hspots hi (Nat.succ_pos i)
  simp only [spotWindow]
  simp only [Nat.add_one_mul] at hend ⊢
  omega

theorem spotWindow_lt {i j : Nat} (hij : i < j) (hj : j < spots) :
    (spotWindow step n i).2 < (spotWindow step n j).1 := by
  have hfirst := spotWindow_adjacent hstep hspots (i := i) (by omega)
  have hmono : (i + 1) * step / 256 ≤ j * step / 256 := Nat.div_le_div_right (Nat.mul_le_mul_right _ hij)
  simp only [spotWindow] at hfirst ⊢
  omega

/-- A column or line belongs to one window at most. -/
theorem spotWindow_unique {i j l : Nat} (hi : i < spots) (hj : j < spots) (hil : (spotWindow step n i).1 ≤ l)
    (hil' : l ≤ (spotWindow step n i).2) (hjl : (spotWindow step n j).1 ≤ l) (hjl' : l ≤ (spotWindow step n j).2) :
    i = j := by
  rcases Nat.lt_trichotomy i j with hlt | heq | hgt
  · have := spotWindow_lt hstep hspots hlt hj
    omega
  · exact heq
  · have := spotWindow_lt hstep hspots hgt hi
    omega

end

/-- Settles O36: the figures by their definition, their bounds, and the windows of columns and of lines alike. -/
theorem reductionFiguresAndWindows : Obligations.ReductionFiguresAndWindows := by
  intro h f span hwidth _ hheight _ g hg tw th stepX stepY htw hth hstepX hstepY
  subst hg htw hth hstepX hstepY
  have hstep := figuresOf_step_ge h f span
  have how := figuresOf_ow_le h f span
  have hoh := figuresOf_oh_le h f span
  obtain ⟨hcolumn, hcolumns⟩ := figuresOf_columns h f span
  obtain ⟨hline, hlines⟩ := figuresOf_lines h f span
  refine ⟨rfl, decide_eq_true_iff, rfl, rfl, rfl, rfl, hstep, figuresOf_step_le h f span, hcolumn, hline, hcolumns, hlines,
    fun x hx => ?_, fun y hy => ?_, fun x hx => spotWindow_adjacent hstep how hx,
    fun y hy => spotWindow_adjacent hstep hoh hy⟩
  · exact ⟨_, _, rfl, rfl, rfl, spotWindow_within hstep how hwidth hx⟩
  · exact ⟨_, _, rfl, rfl, rfl, spotWindow_within hstep hoh hheight hy⟩

end Sys2Proof.Machine
end

section
/-! SUPPORT. READ STATUS: the bytes of a number (R187), and the items of the report with their widths (R205). -/
namespace Sys2Proof.Machine

/-! ## The bytes of a number -/

@[simp] theorem bytesOf_length (width n : Nat) : (bytesOf width n).length = width := by
  induction width generalizing n with
  | zero => rfl
  | succ width ih => simp [bytesOf, ih]

theorem bytesOf_getElem? {width i : Nat} (n : Nat) (hi : i < width) :
    (bytesOf width n)[i]? = some (BitVec.ofNat 8 (n / 256 ^ (width - 1 - i))) := by
  induction width generalizing n with
  | zero => omega
  | succ width ih =>
    rw [bytesOf]
    by_cases hlast : i < width
    · have hpow : width + 1 - 1 - i = width - 1 - i + 1 := by omega
      rw [List.getElem?_append_left (by simpa using hlast), ih _ hlast, hpow, pow_succ', Nat.div_div_eq_div_mul]
    · obtain rfl : i = width := by omega
      rw [List.getElem?_append_right (by simp)]
      simp

/-! ## The items -/

section
variable {s : State}

theorem attentionItem_eq (hreset : s.lines.resetLine = false) :
    bit s.attentionLine = [if s.port.flags &&& s.port.mask = 0#24 then 0 else 1] := by
  by_cases h : s.port.flags &&& s.port.mask = 0#24 <;> simp [State.attentionLine, bit, hreset, h]

theorem conditionItem_eq (l : Lane) : bytesOf 1 l.conditionCode =
    match l.definition with
    | none => ([0] : List Byte)
    | some d => [if d.enabled then 1 else 2] := by
  obtain ⟨n, _ | d⟩ := l
  · rfl
  · cases h : d.enabled <;> simp [Lane.conditionCode, h, bytesOf]

theorem contextItem_eq (c : CtxId) : bytesOf 1 (s.contextCode c) =
    match s.fiche c with
    | none => ([0] : List Byte)
    | some x => bytesOf 1 x.state.code := by
  rw [State.contextCode]
  cases s.fiche c <;> rfl

/-- The intake's state, its header bytes and its transfer (R74, R76; log entry 26 for the lines of STALLED). -/
theorem intakeItems_eq (i : Intake) {transfer : Header → List Byte} (ht : ∀ h, transfer h =
      [1] ++ bytesOf 6 h.key.toNat ++ bytesOf 1 h.page ++ bytesOf 2 h.width ++ bytesOf 2 h.height) :
    bytesOf 1 i.code ++ bytesOf 1 i.headerCount ++ transferBytes i =
      match i with
      | .ready taken => [0] ++ bytesOf 1 taken.length ++ List.replicate 12 (0 : Byte) ++ [0] ++ [0, 0] ++ [0]
      | .stalled m => [1] ++ [0] ++ transfer m.header ++ [1] ++ [0, 0] ++ [0]
      | .receiving m buffers lines _ _ => [2] ++ [0] ++ transfer m.header ++ [1] ++ bytesOf 2 lines ++
        bytesOf 1 buffers.length
      | .discarding h judgment toDrop => [3] ++ [0] ++ transfer h ++ [if judgment = .orphan then 2 else 3] ++
        bytesOf 2 ((h.height * ((h.width * (if h.depth = 1 then 1 else 8) + 7) / 8) - toDrop) /
          ((h.width * (if h.depth = 1 then 1 else 8) + 7) / 8)) ++ [0] := by
  obtain rfl : transfer = _ := funext ht
  have hnoLines : bytesOf 2 0 = [0, 0] := rfl
  cases i with
  | ready taken =>
    simp only [transferBytes, Intake.lines, hnoLines]
    rfl
  | stalled m =>
    simp only [transferBytes, Intake.lines, hnoLines]
    rfl
  | receiving m buffers lines line sums => rfl
  | discarding h judgment toDrop => cases judgment <;> rfl

/-- The context under exposure and the current cell (R161, R181). -/
theorem exposureBytes_eq : s.exposureBytes =
    (match s.gate.state.underExposure with
      | none => List.replicate 5 (0 : Byte)
      | some c => [1] ++ bytesOf 1 c.val ++ bytesOf 3 (s.serialOf c)) ++
    (match s.gate.state with
      | .cells c n | .index c n _ => [1] ++ bytesOf 2 n ++ textBytes (printedCell (s.formatOf c) n)
      | .idle | .advance _ | .title _ | .cut _ | .spoil | .stopped => List.replicate 6 (0 : Byte)) := by
  rw [State.exposureBytes]
  cases s.gate.state <;> rfl

theorem curveFlags_eq (g : Gate) : g.curveFlags =
    (if (g.curves.get 0).pendingFlag then 1 else 0) + (if (g.curves.get 1).pendingFlag then 2 else 0) +
      (if (g.curves.get 2).pendingFlag then 4 else 0) + if (g.curves.get 3).pendingFlag then 8 else 0 := by
  simp [Gate.curveFlags, List.finRange_succ, ← Nat.add_assoc]

theorem lampBytes_eq (g : Gate) : lampBytes g =
    bytesOf 1 g.lamp.code ++ bytesOf 1 g.standbyPeriod ++
    bytesOf 1 (if g.standbyPeriod = 0 then 90 else g.standbyPeriod) ++
    (match g.warmUp with
      | none => ([0, 0] : List Byte)
      | some n => [1] ++ bytesOf 1 n) ++
    (match g.standby with
      | none => ([0, 0, 0] : List Byte)
      | some n => [1] ++ bytesOf 2 n) ++
    bytesOf 1 ((if (g.curves.get 0).pendingFlag then 1 else 0) + (if (g.curves.get 1).pendingFlag then 2 else 0) +
      (if (g.curves.get 2).pendingFlag then 4 else 0) + if (g.curves.get 3).pendingFlag then 8 else 0) := by
  rw [lampBytes, curveFlags_eq]
  cases g.warmUp <;> cases g.standby <;> rfl

/-! ## The widths -/

theorem mayBeAbsent_length {width : Nat} {item : Option (List Byte)} (h : ∀ b ∈ item, b.length = width) :
    (mayBeAbsent width item).length = width + 1 := by
  cases item with
  | none => simp [mayBeAbsent]
  | some b => simp [mayBeAbsent, h b rfl]

theorem queueBytes_length {l : LaneId} (h : (s.queue l).length ≤ 8) : (s.queueBytes l).length = 33 := by
  have hslots : ((s.queue l).flatMap fun c => ctxSerialBytes c (s.serialOf c)).length = (s.queue l).length * 4 := by
    simp [List.length_flatMap, ctxSerialBytes]
  simp only [State.queueBytes, List.length_append, bytesOf_length, hslots, List.length_replicate]
  omega

theorem transferBytes_length (i : Intake) : (transferBytes i).length = 16 := by
  simp only [transferBytes, List.length_append, bytesOf_length]
  rw [mayBeAbsent_length]
  simp

theorem exposureBytes_length : s.exposureBytes.length = 11 := by
  rw [exposureBytes_eq]
  cases s.gate.state <;> simp [GateState.underExposure, textBytes, printedCell, decimal]

theorem lampBytes_length (g : Gate) : (lampBytes g).length = 9 := by
  simp only [lampBytes, List.length_append, bytesOf_length]
  rw [mayBeAbsent_length, mayBeAbsent_length] <;> simp

theorem flatMap_finRange_length {n width : Nat} {item : Fin n → List Byte} (h : ∀ i, (item i).length = width) :
    ((List.finRange n).flatMap item).length = n * width := by
  simp [List.length_flatMap, h]

/-- 239 bytes, when each queue fits its eight slots (R205). -/
theorem statusBytes_length (h : ∀ l, (s.queue l).length ≤ 8) : s.statusBytes.length = 239 := by
  have hconditions := flatMap_finRange_length fun l => bytesOf_length 1 (s.lane l).conditionCode
  have hserials := flatMap_finRange_length fun l => bytesOf_length 3 (s.lane l).nextSerial
  have hcontexts := flatMap_finRange_length fun c => bytesOf_length 1 (s.contextCode c)
  have hqueues := flatMap_finRange_length fun l => queueBytes_length (h l)
  unfold State.statusBytes
  simp only [bit, List.length_append, bytesOf_length, hconditions, hserials, hcontexts, hqueues,
    transferBytes_length, Vector.length_toList, exposureBytes_length, lampBytes_length, List.length_singleton]

end

/-- Settles O50: the bytes of a number, the codes, and the report's items one by one with their widths. -/
theorem readStatusReportsEveryBlock : Obligations.ReadStatusReportsEveryBlock := by
  refine ⟨fun width n => ⟨bytesOf_length width n, fun i => bytesOf_getElem? n⟩, ⟨rfl, rfl, fun _ _ _ => rfl⟩,
    fun s c x => serialOf_of_fiche, fun g c => underExposure_eq_some_iff, fun s f rest transfer hx ht => ?_⟩
  have hreset : s.lines.resetLine = false := hx.1
  refine ⟨s.statusBytes, execute_answered hx rfl, statusBytes_length, ?_⟩
  have hintake := fun rest => congrArg (· ++ rest) (intakeItems_eq s.intake ht)
  simp only [List.append_assoc] at hintake
  unfold State.statusBytes
  simp only [attentionItem_eq hreset, conditionItem_eq, contextItem_eq, exposureBytes_eq,
    lampBytes_eq, List.append_assoc, hintake]
  rfl

end Sys2Proof.Machine
end

section
/-! SUPPORT. Reduction of a raster: the gray values of a line (R77), the rows and margins written in Page Memory (R86, R94, R99),
the sums and means of a spot row (R84, R85), and the row that a source line belongs to (R86). -/
namespace Sys2Proof.Machine

/-! ## The gray values of a line -/

theorem grayLine_length (depth width : Nat) (bytes : List Byte) : (grayLine depth width bytes).length = width := by
  simp [grayLine]

theorem grayLine_bytes {width j : Nat} {bytes : List Byte} {v : Byte} (hj : j < width) (hv : bytes[j]? = some v) :
    (grayLine 8 width bytes)[j]? = some v.toNat := by
  simp [grayLine, hj, hv]

theorem grayLine_bits {width j : Nat} {bytes : List Byte} {v : Byte} (hj : j < width) (hv : bytes[j / 8]? = some v) :
    (grayLine 1 width bytes)[j]? = some (if v.toNat.testBit (7 - j % 8) = true then 255 else 0) := by
  simp [grayLine, hj, hv, BitVec.getLsbD]

/-! ## Rows written -/

/-- The extent of a format in a buffer, by the spot's column and row (R94). -/
theorem inExtent_spot {f : Format} {buffer x y : Nat} (hx : x < 2048) (hy : y < 1536) :
    inExtent f buffer (buffer * 3145728 + y * 2048 + x) = true ↔ x < f.cellWidth ∧ y < f.cellHeight := by
  have hbuffer : (buffer * 3145728 + y * 2048 + x) / 3145728 = buffer := by omega
  have hrow : (buffer * 3145728 + y * 2048 + x) % 3145728 / 2048 = y := by omega
  have hcolumn : (buffer * 3145728 + y * 2048 + x) % 2048 = x := by omega
  simp [inExtent, bufferStride, rowStride, hbuffer, hrow, hcolumn, and_comm]

section
variable {mem : Memory} {f : Format} {buffer y : Nat} {values : List Byte} (hmem : mem.wf = true)
include hmem

theorem spot_writeRow (hy : y < f.cellHeight) (hlen : values.length = f.cellWidth) {b y' x : Nat} (hy' : y' < 1536)
    (hx : x < 2048) : (mem.writeRow f buffer y values).spot b x y' =
      if b = buffer ∧ y' = y then values[x]?.getD (mem.spot b x y') else mem.spot b x y' := by
  obtain ⟨hspots, -, -⟩ := Memory.wf_iff.1 hmem
  have hwidth := cellWidth_le f
  have hheight := cellHeight_le f
  have hread : (mem.writeRow f buffer y values).spot b x y' =
      if h : spotAddress buffer 0 y ≤ spotAddress b x y' ∧ spotAddress b x y' < spotAddress buffer 0 y + values.length then
        values[spotAddress b x y' - spotAddress buffer 0 y] else mem.spot b x y' :=
    sparseGet_writeRun values _ _ _ hspots
  have hrow : (spotAddress buffer 0 y ≤ spotAddress b x y' ∧
      spotAddress b x y' < spotAddress buffer 0 y + values.length) ↔ (b = buffer ∧ y' = y) ∧ x < values.length := by
    simp only [spotAddress, bufferStride, rowStride]
    omega
  rw [hread]
  by_cases hsame : b = buffer ∧ y' = y
  · by_cases hxlen : x < values.length
    · have hindex : spotAddress b x y' - spotAddress buffer 0 y = x := by
        obtain ⟨rfl, rfl⟩ := hsame
        simp only [spotAddress]
        omega
      rw [dif_pos (hrow.2 ⟨hsame, hxlen⟩), if_pos hsame, List.getElem?_eq_getElem hxlen, Option.getD_some]
      simp only [hindex]
    · rw [dif_neg (fun h => hxlen (hrow.1 h).2), if_pos hsame, List.getElem?_eq_none (Nat.not_lt.1 hxlen),
        Option.getD_none]
  · rw [dif_neg (fun h => hsame (hrow.1 h).1), if_neg hsame]

/-- The check groups of the row are clean (R99). -/
theorem upsets_writeRow (n : Nat) : sparseGet 0#72 (mem.writeRow f buffer y values).upsets n =
    if groupInExtent f buffer n = true ∧ 8 * n % 3145728 / 2048 = y then 0#72 else sparseGet 0#72 mem.upsets n := by
  obtain ⟨-, hupsets, -⟩ := Memory.wf_iff.1 hmem
  have hread : sparseGet 0#72 (mem.writeRow f buffer y values).upsets n =
      if (!(groupInExtent f buffer n && 8 * n % bufferStride / rowStride == y)) = true then sparseGet 0#72 mem.upsets n
      else 0#72 :=
    sparseGet_filter (fun n => !(groupInExtent f buffer n && 8 * n % bufferStride / rowStride == y)) hupsets
  have hkept : (!(groupInExtent f buffer n && 8 * n % bufferStride / rowStride == y)) = true ↔
      ¬(groupInExtent f buffer n = true ∧ 8 * n % 3145728 / 2048 = y) := by
    rw [Bool.not_eq_true', ← Bool.not_eq_true, Bool.and_eq_true, beq_iff_eq]
    rfl
  rw [hread, ite_congr (propext hkept) (fun _ => rfl) (fun _ => rfl), ite_not]

theorem extent_writeRow (b : Nat) :
    (mem.writeRow f buffer y values).extent b = if b = buffer then some f else mem.extent b := by
  obtain ⟨-, -, hextents⟩ := Memory.wf_iff.1 hmem
  exact sparseGet_sparsePut hextents

end

/-- A SINGLE page fills one buffer; a WIDE one the LEFT buffer and then the RIGHT one (R85, R86). -/
theorem writeTargetRow_eq (mem : Memory) (m : Matched) (b b' y : Nat) (row : List Byte) :
    writeTargetRow mem m [b] y row = mem.writeRow m.format b y (row.take m.format.cellWidth) ∧
    writeTargetRow mem m [b, b'] y row =
      (mem.writeRow m.format b y (row.take m.format.cellWidth)).writeRow m.format b' y
        ((row.drop m.format.cellWidth).take m.format.cellWidth) := by
  simp [writeTargetRow]

/-! ## Margins written -/

/-- Reading a store after entries are dropped by their address, once for each of a list. -/
theorem sparseGet_foldl_filter {α : Type} [DecidableEq α] {d : α} (p : Nat → Nat → Bool) (a : Nat) (bs : List Nat) :
    ∀ store : List (Nat × α), sparseWf d store = true →
      sparseGet d (bs.foldl (fun store b => store.filter fun e => !p b e.1) store) a =
        if ∃ b ∈ bs, p b a = true then d else sparseGet d store a := by
  induction bs with
  | nil => intro store _; simp
  | cons b bs ih =>
    intro store h
    rw [List.foldl_cons, ih _ (sparseWf_filter _ h), sparseGet_filter (fun a => !p b a) h]
    by_cases hb : p b a = true <;> simp [hb]

/-- An address lies in the margin rows of one of a transfer's buffers. -/
def inMargin (m : Matched) (b a : Nat) : Bool :=
  inExtent m.format b a &&
    (a % bufferStride / rowStride < m.figures.oy || m.figures.oy + m.figures.oh ≤ a % bufferStride / rowStride)

theorem exists_inMargin_iff {m : Matched} {buffers : List Nat} {margin : Nat → Prop}
    (hmargin : ∀ y, margin y ↔ y < m.figures.oy ∨ m.figures.oy + m.figures.oh ≤ y) {a : Nat} :
    (∃ b ∈ buffers, inMargin m b a = true) ↔
      ∃ b ∈ buffers, inExtent m.format b a = true ∧ margin (a % 3145728 / 2048) := by
  simp only [inMargin, hmargin, Bool.and_eq_true, Bool.or_eq_true, decide_eq_true_eq]
  rfl

section
variable {mem : Memory} (m : Matched) (buffers : List Nat)

/-- A margin spot reads 255 and any other as before (R86). -/
theorem spots_writeTransferMargins (hmem : mem.wf = true) (a : Nat) :
    sparseGet blankSpot (writeTransferMargins m buffers mem).spots a =
      if ∃ b ∈ buffers, inMargin m b a = true then 255#8 else sparseGet blankSpot mem.spots a := by
  obtain ⟨hspots, -, -⟩ := Memory.wf_iff.1 hmem
  have hfold : buffers.foldl (fun store b => store.filter fun e => !inMargin m b e.1) mem.spots =
      (writeTransferMargins m buffers mem).spots := List.foldl_hom Memory.spots fun _ _ => rfl
  rw [← hfold, sparseGet_foldl_filter (inMargin m) a buffers _ hspots]
  rfl

/-- A check group of the margin rows is clean and any other as before (R99). -/
theorem upsets_writeTransferMargins (hmem : mem.wf = true) (n : Nat) :
    sparseGet 0#72 (writeTransferMargins m buffers mem).upsets n =
      if ∃ b ∈ buffers, inMargin m b (8 * n) = true then 0#72 else sparseGet 0#72 mem.upsets n := by
  obtain ⟨-, hupsets, -⟩ := Memory.wf_iff.1 hmem
  have hfold : buffers.foldl (fun store b => store.filter fun e => !inMargin m b (8 * e.1)) mem.upsets =
      (writeTransferMargins m buffers mem).upsets := List.foldl_hom Memory.upsets fun _ _ => rfl
  rw [← hfold, sparseGet_foldl_filter (fun b n => inMargin m b (8 * n)) n buffers _ hupsets]

theorem extents_writeTransferMargins : (writeTransferMargins m buffers mem).extents = mem.extents := by
  induction buffers generalizing mem with
  | nil => rfl
  | cons b buffers ih => exact ih (mem := mem.writeMargins m.format b _)

end

/-! ## Sums and means -/

theorem lineSums_getElem? (g : Figures) (width : Nat) (gray : List Nat) {x : Nat} (hx : x < g.ow) :
    (lineSums g width gray)[x]? = some
      ((gray.drop (spotWindow g.step width x).1).take
        ((spotWindow g.step width x).2 - (spotWindow g.step width x).1 + 1)).sum := by
  rw [lineSums, List.getElem?_map, List.getElem?_range hx]
  rfl

/-- A target row: the means of the block between margins of 255 (R85). -/
theorem targetRow_getElem? {m : Matched} {sums : List Nat} (y : Nat) {x : Nat} (hlen : sums.length = m.figures.ow)
    (hblock : m.figures.ox + m.figures.ow ≤ targetWidth m.format m.span) (hx : x < targetWidth m.format m.span) :
    (targetRow m y sums)[x]? = some (
      if m.figures.ox ≤ x ∧ x < m.figures.ox + m.figures.ow then
        BitVec.ofNat 8 (meanOf (sums.getD (x - m.figures.ox) 0)
          (windowCount (spotWindow m.figures.step m.header.width (x - m.figures.ox)) *
            windowCount (spotWindow m.figures.step m.header.height y)))
      else 255#8) := by
  simp only [targetRow]
  rcases Nat.lt_or_ge x m.figures.ox with hleft | hleft
  · rw [if_neg (by omega), List.append_assoc, List.getElem?_append_left (by simpa using hleft),
      List.getElem?_replicate_of_lt hleft]
    rfl
  rcases Nat.lt_or_ge x (m.figures.ox + m.figures.ow) with hright | hright
  · have hsum : sums[x - m.figures.ox]? = some (sums.getD (x - m.figures.ox) 0) := by
      rw [List.getD_eq_getElem?_getD, List.getElem?_eq_getElem (by omega), Option.getD_some]
    rw [if_pos ⟨hleft, hright⟩, List.append_assoc, List.getElem?_append_right (by simpa using hleft),
      List.getElem?_append_left (by simp; omega), List.length_replicate, List.getElem?_map, List.getElem?_zipIdx, hsum]
    simp
  · rw [if_neg (by omega), List.getElem?_append_right (by simp; omega), List.getElem?_replicate_of_lt (by simp; omega)]
    rfl

/-! ## The spot row of a source line -/

section
variable {m : Matched} {l : Nat}

theorem rowOfLine_eq_none (h : ∀ y < m.figures.oh, ¬((spotWindow m.figures.step m.header.height y).1 ≤ l ∧
    l ≤ (spotWindow m.figures.step m.header.height y).2)) : rowOfLine m l = none :=
  List.find?_eq_none.2 fun y hy => by simpa using h y (List.mem_range.1 hy)

/-- The windows are disjoint, so the row found is the one whose window holds the line. -/
theorem rowOfLine_eq_some (hfigures : m.figures = figuresOf m.header m.format m.span) {y : Nat} (hy : y < m.figures.oh)
    (hfirst : (spotWindow m.figures.step m.header.height y).1 ≤ l)
    (hlast : l ≤ (spotWindow m.figures.step m.header.height y).2) : rowOfLine m l = some y := by
  have hstep : 256 ≤ m.figures.step := hfigures ▸ figuresOf_step_ge ..
  have hoh : m.figures.oh ≤ max 1 (m.header.height * 256 / m.figures.step) := hfigures ▸ figuresOf_oh_le ..
  cases hrow : rowOfLine m l with
  | none =>
    have hno := List.find?_eq_none.1 hrow y (List.mem_range.2 hy)
    exact absurd (decide_eq_true ⟨hfirst, hlast⟩) hno
  | some z =>
    have hz : z < m.figures.oh := List.mem_range.1 (List.mem_of_find?_eq_some hrow)
    have hwindow := List.find?_some hrow
    simp only [decide_eq_true_eq] at hwindow
    obtain ⟨hzfirst, hzlast⟩ := hwindow
    rw [spotWindow_unique hstep hoh hz hy hzfirst hzlast hfirst hlast]

variable (buffers : List Nat) (line : List Byte) (sums : List Nat) (mem : Memory)

theorem takeLine_noWindow (h : rowOfLine m l = none) : takeLine m buffers l line sums mem = (sums, mem) := by
  simp only [takeLine, h]

theorem takeLine_window {y : Nat} (h : rowOfLine m l = some y) {here total : List Nat}
    (hhere : here = lineSums m.figures m.header.width (grayLine m.header.depth m.header.width line))
    (htotal : total = if l = (spotWindow m.figures.step m.header.height y).1 then here
      else List.zipWith (· + ·) sums here) :
    takeLine m buffers l line sums mem = (total,
      if l = (spotWindow m.figures.step m.header.height y).2 then
        writeTargetRow mem m buffers (m.figures.oy + y) (targetRow m y total)
      else mem) := by
  subst hhere htotal
  simp only [takeLine, h]
  split <;> rfl

end

/-- Settles O37: the gray values, the rows and margins in Page Memory, the sums and means, and the row of a source line. -/
theorem reducedLinesFillSpotRows : Obligations.ReducedLinesFillSpotRows := by
  refine ⟨fun width bytes => ⟨grayLine_length .., grayLine_length .., fun j hj =>
      ⟨fun v => grayLine_bytes hj, fun v => grayLine_bits hj⟩⟩,
    fun mem f buffer y values hmem hy hlen => ⟨fun b y' x => spot_writeRow hmem hy hlen, upsets_writeRow hmem,
      extent_writeRow hmem⟩,
    writeTargetRow_eq, fun mem m buffers margin hmem hmargin => ?_, fun _ _ => rfl, fun _ _ _ _ _ _ => ⟨rfl, rfl⟩,
    fun f buffer x y => inExtent_spot, fun g width gray x => lineSums_getElem? g width gray,
    fun m y sums x => targetRow_getElem? y, fun m buffers l line sums mem _ _ _ _ hfigures => ⟨?_, ?_⟩⟩
  · have hin := fun a => exists_inMargin_iff (buffers := buffers) hmargin (a := a)
    have hspots := spots_writeTransferMargins m buffers hmem
    have hupsets := upsets_writeTransferMargins m buffers hmem
    refine ⟨fun a => ?_, fun a hchanged => ?_, fun a b hb hextent hrow => ?_, fun n h => ?_, fun n h => ?_,
      extents_writeTransferMargins m buffers⟩
    · rw [hspots]
      split
      · exact .inr rfl
      · exact .inl rfl
    · by_contra hno
      exact hchanged ((hspots a).trans (if_neg (mt (hin a).1 hno)))
    · exact (hspots a).trans (if_pos ((hin a).2 ⟨b, hb, hextent, hrow⟩))
    · exact (hupsets n).trans (if_pos ((hin (8 * n)).2 h))
    · exact (hupsets n).trans (if_neg (mt (hin (8 * n)).1 h))
  · intro y hy hfirst hlast here hhere total htotal
    exact takeLine_window buffers line sums mem (rowOfLine_eq_some hfigures hy hfirst hlast) hhere htotal
  · exact fun h => takeLine_noWindow buffers line sums mem (rowOfLine_eq_none h)

end Sys2Proof.Machine
end

section
/-! SUPPORT. The buffers that Image Intake and the cells hold (R45, R95), as a multiset. -/
namespace Sys2Proof.Machine

/-! ## The buffers of a cell map -/

/-- The buffer that a cell holds (R45). -/
def Cell.buffer (e : Cell) : Option Nat := e.entry.bind (·.buffer)

theorem Cell.buffer_modify {g : Occupied → Occupied} (hg : ∀ o, (g o).buffer = o.buffer) (e : Cell) :
    (e.modify g).buffer = e.buffer := by
  cases e with
  | occupied o => exact hg o
  | free | index => rfl

/-- The buffers that the cells of a map hold. -/
def buffersIn (cells : List Cell) : Multiset Nat := (cells.map Cell.buffer).reduceOption

theorem coe_ficheBuffers (x : Fiche) : (x.buffers : Multiset Nat) = buffersIn x.cells := by
  rw [Fiche.buffers, Fiche.entries, List.filterMap_filterMap, buffersIn, List.reduceOption, List.filterMap_map]
  rfl

theorem reduceOption_eq_filterMap_range {α : Type} (l : List (Option α)) :
    l.reduceOption = (List.range l.length).filterMap fun i => l[i]?.join := by
  induction l with
  | nil => rfl
  | cons a l ih =>
    have hshift : (List.range l.length).filterMap (fun i => (a :: l)[i + 1]?.join) = l.reduceOption := by
      rw [ih]
      simp
    rw [List.length_cons, List.range_succ_eq_map, List.filterMap_cons, List.filterMap_map]
    simp only [Function.comp_def, Nat.succ_eq_add_one, hshift]
    cases a <;> simp [List.reduceOption]

/-- Entries that each come from a place of their own are at most the entries they come from. -/
theorem reduceOption_le_of_source {new old : List (Option Nat)} (source : Nat → Nat)
    (hsource : ∀ i b, new[i]? = some (some b) → old[source i]? = some (some b))
    (hinj : ∀ i j b, new[i]? = some (some b) → new[j]? = some (some b) → source i = source j → i = j) :
    (new.reduceOption : Multiset Nat) ≤ old.reduceOption := by
  let listed := (List.range new.length).filter fun i => (new[i]?.join).isSome
  have hlisted : ∀ i ∈ listed, ∃ b, new[i]? = some (some b) := by
    intro i hi
    obtain ⟨b, hb⟩ := Option.isSome_iff_exists.1 (List.mem_filter.1 hi).2
    exact ⟨b, Option.join_eq_some_iff.1 hb⟩
  have hnew : new.reduceOption = (listed.map source).filterMap fun i => old[i]?.join := by
    rw [reduceOption_eq_filterMap_range, List.filterMap_map, List.filterMap_filter]
    refine List.filterMap_congr fun i _ => ?_
    cases hi : new[i]?.join with
    | none => simp
    | some b => simp [hsource i b (Option.join_eq_some_iff.1 hi)]
  have hnodup : (listed.map source).Nodup := by
    refine (List.nodup_range.filter _).map_on fun i hi j hj h => ?_
    obtain ⟨b, hb⟩ := hlisted i hi
    obtain ⟨b', hb'⟩ := hlisted j hj
    have hbb := (hsource i b hb).symm.trans (h ▸ hsource j b' hb')
    simp only [Option.some.injEq] at hbb
    subst hbb
    exact hinj i j b hb hb' h
  have hsubset : listed.map source ⊆ List.range old.length := by
    intro k hk
    obtain ⟨i, hi, rfl⟩ := List.mem_map.1 hk
    obtain ⟨b, hb⟩ := hlisted i hi
    exact List.mem_range.2 (List.getElem?_eq_some_iff.1 (hsource i b hb)).1
  rw [hnew, reduceOption_eq_filterMap_range old]
  exact Multiset.filterMap_le_filterMap _ (Multiset.coe_le.2 (List.subperm_of_subset hnodup hsubset))

/-- Cell i of a map holds buffer b. -/
theorem holdsAt_iff {cells : List Cell} {i b : Nat} : (cells.map Cell.buffer)[i]? = some (some b) ↔
    ∃ e, cells[i]? = some e ∧ e.buffer = some b := by
  rw [List.getElem?_map, Option.map_eq_some_iff]

theorem holdsAt_mapCells {g : Nat → Cell → Cell} {cells : List Cell} {i b : Nat} :
    ((mapCells g cells).map Cell.buffer)[i]? = some (some b) ↔ ∃ e, cells[i]? = some e ∧ (g i e).buffer = some b := by
  rw [List.getElem?_map, mapCells_getElem?, Option.map_map, Option.map_eq_some_iff]
  rfl

/-- A rewritten cell map holds no buffer that it did not hold, when each entry's buffer is its old one or none. -/
theorem buffersIn_mapCells_le {g : Nat → Cell → Cell} (hg : ∀ i e b, (g i e).buffer = some b → e.buffer = some b)
    (cells : List Cell) : buffersIn (mapCells g cells) ≤ buffersIn cells := by
  refine reduceOption_le_of_source id (fun i b h => ?_) fun i j b _ _ h => h
  obtain ⟨e, he, hb⟩ := holdsAt_mapCells.1 h
  exact holdsAt_iff.2 ⟨e, he, hg i e b hb⟩

theorem buffersIn_occupyRun_le (cells : List Cell) (key : Key) (span : Span) (first q pages : Nat) :
    buffersIn (occupyRun cells key span first q pages) ≤ buffersIn cells := by
  refine buffersIn_mapCells_le (fun i e b h => ?_) cells
  split at h
  · cases h
  · exact h

theorem buffersIn_freeRun_le (cells : List Cell) (first length : Nat) :
    buffersIn (freeRun cells first length) ≤ buffersIn cells := by
  refine buffersIn_mapCells_le (fun i e b h => ?_) cells
  split at h
  · cases h
  · exact h

theorem buffersIn_modify {g : Occupied → Occupied} (hg : ∀ o, (g o).buffer = o.buffer) (cells : List Cell) :
    buffersIn (cells.map (Cell.modify g)) = buffersIn cells := by
  rw [buffersIn, List.map_map]
  exact congrArg _ (congrArg _ (List.map_congr_left fun e _ => Cell.buffer_modify hg e))

theorem buffersIn_modifyOne_le {g : Occupied → Occupied} (hg : ∀ o, (g o).buffer = o.buffer) (cell : Nat)
    (cells : List Cell) : buffersIn (mapCells (fun i e => if i = cell then e.modify g else e) cells) ≤ buffersIn cells := by
  refine buffersIn_mapCells_le (fun i e b h => ?_) cells
  split at h
  · rwa [Cell.buffer_modify hg] at h
  · exact h

/-- A cell map at opening holds no buffer (R43). -/
theorem buffersIn_initialCells (f : Format) (k : Fin 4) : buffersIn (initialCells f k) = 0 := by
  simp [buffersIn, initialCells, Cell.buffer, Cell.entry, List.reduceOption_replicate_none]

/-- An exposed fiche holds no buffer (R45, R160). -/
theorem buffersIn_expose (x : Fiche) : buffersIn x.expose.cells = 0 := by
  have hnone : ∀ e : Cell, (e.modify fun o => { o with buffer := none }).buffer = none := by
    intro e
    cases e <;> rfl
  simp only [buffersIn, Fiche.expose, List.map_map, Function.comp_def, hnone, List.map_const',
    List.reduceOption_replicate_none]
  rfl

/-- The buffers of a page's cells come from the transfer, every other one from its own cell (R88, R100). -/
theorem buffersIn_attachCells_le (cells : List Cell) (first : Nat) (buffers : List Nat) (cropped : Bool) :
    buffersIn (attachCells cells first buffers cropped) ≤ (buffers : Multiset Nat) + buffersIn cells := by
  have hadd : (buffers : Multiset Nat) + buffersIn cells = (buffers.map some ++ cells.map Cell.buffer).reduceOption := by
    rw [List.reduceOption_append, ← Multiset.coe_add]
    simp [buffersIn, List.reduceOption]
  have hfrom : ∀ i b, ((attachCells cells first buffers cropped).map Cell.buffer)[i]? = some (some b) →
      (first ≤ i ∧ i < first + buffers.length ∧ buffers[i - first]? = some b) ∨
        (¬(first ≤ i ∧ i < first + buffers.length) ∧ (cells.map Cell.buffer)[i]? = some (some b)) := by
    intro i b h
    rw [List.getElem?_map, attachCells_getElem?, Option.map_map, Option.map_eq_some_iff] at h
    obtain ⟨e, he, hb⟩ := h
    dsimp only [Function.comp_apply] at hb
    split at hb
    next hin =>
      cases e with
      | occupied o => exact .inl ⟨hin.1, hin.2, hb⟩
      | free | index => cases hb
    next hout => exact .inr ⟨hout, holdsAt_iff.2 ⟨e, he, hb⟩⟩
  rw [hadd]
  refine reduceOption_le_of_source
    (fun i => if first ≤ i ∧ i < first + buffers.length then i - first else buffers.length + i) (fun i b h => ?_)
    fun i j b _ _ h => ?_
  · rcases hfrom i b h with ⟨hfirst, hlast, hb⟩ | ⟨hout, hb⟩
    · rw [if_pos ⟨hfirst, hlast⟩, List.getElem?_append_left (by rw [List.length_map]; omega), List.getElem?_map, hb]
      rfl
    · rw [if_neg hout, List.getElem?_append_right (by rw [List.length_map]; omega), List.length_map,
        Nat.add_sub_cancel_left, hb]
  · split at h <;> split at h <;> omega

/-- A record moved to a run of its fiche takes its entries along; every other cell keeps its own (R64, R100). -/
theorem buffersIn_moved_le {cells run grown : List Cell} {first length g : Nat}
    (hrun : run = (cells.drop first).take length)
    (hgrown : ∀ i b, (grown.map Cell.buffer)[i]? = some (some b) →
      (cells.map Cell.buffer)[i]? = some (some b) ∧ ¬(first ≤ i ∧ i < first + length)) :
    buffersIn (mapCells (fun i e => if g ≤ i ∧ i < g + length then run.getD (i - g) e else e) grown) ≤
      buffersIn cells := by
  have hlen : run.length ≤ length := by
    rw [hrun]
    exact List.length_take_le _ _
  have hfrom : ∀ i b, ((mapCells (fun i e => if g ≤ i ∧ i < g + length then run.getD (i - g) e else e) grown).map
      Cell.buffer)[i]? = some (some b) →
      if g ≤ i ∧ i < g + run.length then (cells.map Cell.buffer)[first + (i - g)]? = some (some b)
      else (cells.map Cell.buffer)[i]? = some (some b) ∧ ¬(first ≤ i ∧ i < first + length) := by
    intro i b h
    obtain ⟨e, he, hb⟩ := holdsAt_mapCells.1 h
    split
    next hin =>
      have hrun' : run[i - g]? = cells[first + (i - g)]? := by
        rw [hrun, List.getElem?_take_of_lt (by omega), List.getElem?_drop]
      rw [if_pos (by omega), List.getD_eq_getElem?_getD, List.getElem?_eq_getElem (by omega)] at hb
      rw [List.getElem?_eq_getElem (by omega)] at hrun'
      exact holdsAt_iff.2 ⟨_, hrun'.symm, hb⟩
    next hout =>
      refine hgrown i b (holdsAt_iff.2 ⟨e, he, ?_⟩)
      split at hb
      next hin =>
        rwa [List.getD_eq_default _ _ (by omega)] at hb
      next => exact hb
  refine reduceOption_le_of_source (fun i => if g ≤ i ∧ i < g + run.length then first + (i - g) else i)
    (fun i b h => ?_) fun i j b hi hj h => ?_
  · have hb := hfrom i b h
    split at hb <;> rename_i hin
    · rwa [if_pos hin]
    · rw [if_neg hin]
      exact hb.1
  · have hi := hfrom i b hi
    have hj := hfrom j b hj
    by_cases hgi : g ≤ i ∧ i < g + run.length <;> by_cases hgj : g ≤ j ∧ j < g + run.length
    · rw [if_pos hgi, if_pos hgj] at h
      omega
    · rw [if_neg hgj] at hj
      rw [if_pos hgi, if_neg hgj] at h
      exact absurd (by omega) hj.2
    · rw [if_neg hgi] at hi
      rw [if_neg hgi, if_pos hgj] at h
      exact absurd (by omega) hi.2
    · rwa [if_neg hgi, if_neg hgj] at h

/-- A record resized in its place or moved holds no buffer that its fiche did not hold (R61 to R64). -/
theorem buffersIn_resize_le {f : Fiche} {r : Record} {p : RecordPart} {n : Nat} {cells : List Cell} {first : Nat}
    (h : resize f r p n = some (cells, first)) : buffersIn cells ≤ buffersIn f.cells := by
  unfold resize at h
  dsimp only at h
  split at h
  · cases h
    exact buffersIn_freeRun_le _ _ _
  · split at h
    · cases h
      exact buffersIn_occupyRun_le _ _ _ _ _ _
    · obtain ⟨g, -, h⟩ := Option.map_eq_some_iff.1 h
      cases h
      refine buffersIn_moved_le rfl fun i b h => ?_
      obtain ⟨e, he, hb⟩ := holdsAt_mapCells.1 h
      split at hb
      · cases hb
      · obtain ⟨e', he', hb'⟩ := holdsAt_mapCells.1 (holdsAt_iff.2 ⟨e, he, hb⟩)
        split at hb'
        next => cases hb'
        next hout => exact ⟨holdsAt_iff.2 ⟨e', he', hb'⟩, hout⟩

end Sys2Proof.Machine
end

section
/-! SUPPORT. The buffers that the part holds (R95), and what an update of a context, of Image Intake or of Page Memory leaves
of them and of the form of its stores. -/
namespace Sys2Proof.Machine

/-! ## The buffers held -/

/-- The buffers that the cells of a context hold; none while it is FREE (R41, R45). -/
def heldBy (x : Option Fiche) : Multiset Nat := (x.map fun f => buffersIn f.cells).getD 0

theorem coe_contextBuffers (x : Option Fiche) : (((x.map Fiche.buffers).getD [] : List Nat) : Multiset Nat) = heldBy x := by
  cases x with
  | none => rfl
  | some f => exact coe_ficheBuffers f

theorem contexts_toList (s : State) : s.composer.contexts.toList = (List.finRange 8).map s.fiche := by
  refine List.ext_getElem (by simp) fun i hi _ => ?_
  simp [State.fiche, Vector.get_eq_getElem]

theorem coe_cellBuffers (s : State) : (s.cellBuffers : Multiset Nat) = ∑ c, heldBy (s.fiche c) := by
  rw [State.cellBuffers, contexts_toList, List.flatMap_map, Fin.sum_univ_def]
  induction List.finRange 8 with
  | nil => rfl
  | cons c cs ih => rw [List.flatMap_cons, ← Multiset.coe_add, ih, coe_contextBuffers, List.map_cons, List.sum_cons]

/-- The buffers that Image Intake and the cells hold. -/
def State.held (s : State) : Multiset Nat := s.intake.buffers + ∑ c, heldBy (s.fiche c)

theorem coe_heldBuffers (s : State) : (s.heldBuffers : Multiset Nat) = s.held := by
  rw [State.heldBuffers, ← Multiset.coe_add, coe_cellBuffers, State.held]

theorem buffersHeldOnce_iff {s : State} : s.BuffersHeldOnce ↔ s.held.Nodup ∧ ∀ b ∈ s.held, b < bufferCount := by
  rw [← coe_heldBuffers]
  rfl

/-- The cells of a context that takes another fiche hold at most what they held and what its fiche holds beyond them. -/
theorem cellsHeld_setContext_le {s : State} {c : CtxId} {x : Option Fiche} {taken : Multiset Nat}
    (h : heldBy x ≤ taken + heldBy (s.fiche c)) :
    ∑ d, heldBy ((s.setContext c x).fiche d) ≤ taken + ∑ d, heldBy (s.fiche d) := by
  have hsum : taken + ∑ d, heldBy (s.fiche d) = ∑ d, ((if d = c then taken else 0) + heldBy (s.fiche d)) := by
    rw [Finset.sum_add_distrib, Finset.sum_ite_eq' Finset.univ c, if_pos (Finset.mem_univ c)]
  rw [hsum]
  refine Finset.sum_le_sum fun d _ => ?_
  rw [State.fiche_setContext]
  split
  next hd => rwa [hd]
  next => rw [zero_add]

/-! ## What an update keeps -/

/-- From s to t the stores of Page Memory stay in canonical form, and each buffer stays held at most once (R95). -/
structure KeepsPages (s t : State) : Prop where
  memory : s.memory.wf = true → t.memory.wf = true
  held : s.BuffersHeldOnce → t.BuffersHeldOnce

theorem KeepsPages.refl (s : State) : KeepsPages s s := ⟨id, id⟩

theorem KeepsPages.trans {s t u : State} (h : KeepsPages s t) (g : KeepsPages t u) : KeepsPages s u :=
  ⟨g.memory ∘ h.memory, g.held ∘ h.held⟩

/-- `KeepsPages.trans` with the last update first: its state is the one a goal names. -/
theorem KeepsPages.after {s t u : State} (g : KeepsPages t u) (h : KeepsPages s t) : KeepsPages s u := h.trans g

theorem KeepsPages.of_held_le {s t : State} (hm : s.memory.wf = true → t.memory.wf = true) (hheld : t.held ≤ s.held) :
    KeepsPages s t := by
  refine ⟨hm, fun hs => ?_⟩
  rw [buffersHeldOnce_iff] at hs ⊢
  exact ⟨Multiset.nodup_of_le hheld hs.1, fun b hb => hs.2 b (Multiset.mem_of_le hheld hb)⟩

theorem KeepsPages.of_same {s t : State} (hm : t.memory = s.memory) (hi : t.intake = s.intake)
    (hc : t.composer.contexts = s.composer.contexts) : KeepsPages s t :=
  .of_held_le (by rw [hm]; exact id) (by simp only [State.held, State.fiche, hi, hc, le_refl])

/-- A further update that touches neither Page Memory nor Image Intake nor a context. -/
theorem KeepsPages.same {s t u : State} (h : KeepsPages s t) (hm : u.memory = t.memory) (hi : u.intake = t.intake)
    (hc : u.composer.contexts = t.composer.contexts) : KeepsPages s u := h.trans (.of_same hm hi hc)

/-! ## Page Memory -/

theorem keepsPages_memory (s : State) {m : Memory} (h : s.memory.wf = true → m.wf = true) :
    KeepsPages s { s with memory := m } := .of_held_le h le_rfl

theorem writeTargetRow_wf {mem : Memory} (m : Matched) (buffers : List Nat) (y : Nat) (row : List Byte)
    (h : mem.wf = true) : (writeTargetRow mem m buffers y row).wf = true :=
  foldl_wf _ (fun _ _ hm => Memory.writeRow_wf _ _ _ _ hm) _ _ h

theorem takeLine_wf {mem : Memory} (m : Matched) (buffers : List Nat) (l : Nat) (line : List Byte) (sums : List Nat)
    (h : mem.wf = true) : (takeLine m buffers l line sums mem).2.wf = true := by
  unfold takeLine
  split
  · exact h
  · dsimp only
    split
    · exact writeTargetRow_wf _ _ _ _ h
    · exact h

theorem writeTransferMargins_wf {mem : Memory} (m : Matched) (buffers : List Nat) (h : mem.wf = true) :
    (writeTransferMargins m buffers mem).wf = true :=
  foldl_wf _ (fun _ _ hm => Memory.writeMargins_wf _ _ _ hm) _ _ h

/-! ## Image Intake -/

/-- Image Intake goes on with the buffers it holds, or gives them up. -/
theorem keepsPages_intake (s : State) {i : Intake} (h : i.buffers = s.intake.buffers ∨ i.buffers = []) :
    KeepsPages s { s with intake := i } := by
  refine .of_held_le id (add_le_add_left ?_ _)
  rcases h with h | h <;> rw [h]
  exact Multiset.zero_le _

/-- The buffers that a transfer takes from the pool are held by no other (R95, R96). -/
theorem keepsPages_reserve (s : State) (m : Matched) : KeepsPages s (s.reserve m) := by
  have htaken : (s.freePool.take m.span.cells).Sublist s.freePool := List.take_sublist _ _
  have hpool : ∀ b ∈ s.freePool.take m.span.cells, b < bufferCount ∧ b ∉ s.heldBuffers := by
    intro b hb
    simpa [State.freePool, List.mem_range'_1] using htaken.subset hb
  refine ⟨fun hm => foldl_wf _ (fun _ _ hm => Memory.setExtent_wf _ _ hm) _ _ hm, fun hs => ?_⟩
  have hheld : (s.reserve m).heldBuffers = s.freePool.take m.span.cells ++ s.cellBuffers := rfl
  have hcells : ∀ b ∈ s.cellBuffers, b ∈ s.heldBuffers := fun b hb => List.mem_append_right _ hb
  refine ⟨?_, fun b hb => ?_⟩
  · rw [hheld, List.nodup_append']
    refine ⟨htaken.nodup (List.Nodup.filter _ List.nodup_range'), (List.nodup_append'.1 hs.1).2.1, fun b hb hc => ?_⟩
    exact (hpool b hb).2 (hcells b hc)
  · rw [hheld, List.mem_append] at hb
    rcases hb with hb | hb
    · exact (hpool b hb).1
    · exact hs.2 b (hcells b hb)

theorem keepsPages_stallTest (s : State) : KeepsPages s s.stallTest := by
  rcases stallTest_cases s with h | ⟨m, -, -, h⟩ <;> rw [h]
  · exact .refl s
  · exact keepsPages_reserve s m

/-! ## Contexts -/

theorem keepsPages_setContext {s : State} {c : CtxId} {x : Option Fiche} (h : heldBy x ≤ heldBy (s.fiche c)) :
    KeepsPages s (s.setContext c x) := by
  refine .of_held_le id (add_le_add_right ?_ _)
  have hle : ∑ d, heldBy ((s.setContext c x).fiche d) ≤ 0 + ∑ d, heldBy (s.fiche d) :=
    cellsHeld_setContext_le (by rwa [zero_add])
  rwa [zero_add] at hle

/-- A context takes a fiche that holds no buffer, or becomes FREE. -/
theorem keepsPages_emptyContext (s : State) (c : CtxId) {x : Option Fiche} (h : heldBy x = 0) :
    KeepsPages s (s.setContext c x) := keepsPages_setContext (h.trans_le (Multiset.zero_le _))

theorem keepsPages_setFiche {s : State} {c : CtxId} {f g : Fiche} (hf : s.fiche c = some f)
    (hg : buffersIn g.cells ≤ buffersIn f.cells) : KeepsPages s (s.setContext c (some g)) :=
  keepsPages_setContext (by rw [hf]; exact hg)

theorem keepsPages_modifyFiche (s : State) (c : CtxId) {g : Fiche → Fiche}
    (hg : ∀ f, buffersIn (g f).cells ≤ buffersIn f.cells) : KeepsPages s (s.modifyFiche c g) := by
  refine keepsPages_setContext ?_
  cases s.fiche c with
  | none => exact le_rfl
  | some f => exact hg f

theorem keepsPages_modifyParts {g : RecordPart → Fiche → Fiche} (hg : ∀ p f, buffersIn (g p f).cells ≤ buffersIn f.cells)
    (ps : List RecordPart) : ∀ s : State, KeepsPages s (s.modifyParts ps g) := by
  induction ps with
  | nil => exact .refl
  | cons p ps ih => exact fun s => (ih _).after (keepsPages_modifyFiche s p.ctx (hg p))

theorem keepsPages_modifyCell (s : State) (c : CtxId) (cell : Nat) {g : Occupied → Occupied}
    (hg : ∀ o, (g o).buffer = o.buffer) : KeepsPages s (s.modifyCell c cell g) :=
  keepsPages_modifyFiche s c fun f => buffersIn_modifyOne_le hg cell f.cells

/-! ## The end of an event -/

theorem keepsPages_conclude (before s : State) : KeepsPages s (before.conclude s) := by
  obtain ⟨-, -, -, -, hcomposer, hintake, hmemory, -⟩ := conclude_frame before s
  exact .of_same hmemory hintake (by rw [hcomposer])

/-! ## Queues and the end of composition -/

theorem keepsPages_queueFiche (s : State) (c : CtxId) : KeepsPages s (s.queueFiche c) := by
  unfold State.queueFiche
  split
  next f hf => exact (keepsPages_setFiche hf (g := { f with state := .queued, timer := none }) le_rfl).same rfl rfl rfl
  next => exact .refl s

theorem keepsPages_putBack (s : State) (c : CtxId) : KeepsPages s (s.putBack c) := by
  unfold State.putBack
  split
  next f hf => exact (keepsPages_setFiche hf (g := { f with state := .queued, cellsDone := 0 }) le_rfl).same rfl rfl rfl
  next => exact .refl s

theorem keepsPages_expireImageWait (s : State) (c : CtxId) : KeepsPages s (s.expireImageWait c) := by
  have hgiveUp : ∀ o : Occupied, o.giveUp.buffer = o.buffer := by
    intro o
    unfold Occupied.giveUp
    split <;> rfl
  unfold State.expireImageWait
  split
  next f hf =>
    have hgiven : buffersIn (f.cells.map (Cell.modify Occupied.giveUp)) ≤ buffersIn f.cells :=
      (buffersIn_modify hgiveUp f.cells).le
    have hset := keepsPages_setFiche hf (g := { f with cells := f.cells.map (Cell.modify Occupied.giveUp) }) hgiven
    exact (keepsPages_queueFiche _ c).after (hset.same rfl rfl rfl)
  next => exact .refl s

theorem keepsPages_completeIfDone (s : State) (c : CtxId) : KeepsPages s (s.completeIfDone c) := by
  unfold State.completeIfDone
  split
  · split
    · exact keepsPages_queueFiche s c
    · exact .refl s
  · exact .refl s

theorem keepsPages_closeFiche (s : State) (c : CtxId) (k : CloseCause) : KeepsPages s (s.closeFiche c k) := by
  cases hf : s.fiche c with
  | none =>
    simp only [State.closeFiche, hf]
    exact .refl s
  | some f =>
    rw [closeFiche_of_fiche k hf]
    have hclosing : KeepsPages s (s.setContext c (some { f with
      state := .closing, cause := some k, timer := some f.imageWait })) := keepsPages_setFiche hf le_rfl
    dsimp only
    split
    · exact (keepsPages_queueFiche _ c).after hclosing
    · split
      · exact (keepsPages_expireImageWait _ c).after hclosing
      · exact hclosing

theorem keepsPages_freeEmptyFiche (s : State) (c : CtxId) : KeepsPages s (s.freeEmptyFiche c) := by
  unfold State.freeEmptyFiche
  split
  · exact (keepsPages_emptyContext s c rfl).same rfl rfl rfl
  · exact .refl s

/-! ## Opening a fiche and placing a part -/

theorem keepsPages_openFiche (s : State) (c : CtxId) (l : LaneId) (d : LaneDef)
    (titles : Option (List TitleLine × Nat)) : KeepsPages s (s.openFiche c l d titles) :=
  (keepsPages_emptyContext s c (x := some (newFiche l d (s.lane l).nextSerial titles))
    (buffersIn_initialCells d.format d.k)).same rfl rfl rfl

theorem keepsPages_placePart (s : State) (key : Key) (span : Span) (p : RecordPart) :
    KeepsPages s (s.placePart key span p) :=
  keepsPages_modifyFiche s p.ctx fun f => buffersIn_occupyRun_le f.cells key span p.firstCell p.firstPage p.pages

theorem keepsPages_placeOnNew (s : State) (c : CtxId) (l : LaneId) (d : LaneDef) (key : Key) (span : Span) (q n : Nat) :
    KeepsPages s (s.placeOnNew c l d key span q n).1 :=
  (keepsPages_placePart _ key span _).after (keepsPages_openFiche s c l d none)

/-- Every way of placing a document (R51 to R56). -/
theorem keepsPages_choosePlace {s : State} {l : LaneId} {d : LaneDef} {key : Key} {span : Span} {n : Nat} {p : Placement}
    (h : s.choosePlace l d key span n = some p) : KeepsPages s p.state := by
  unfold State.choosePlace at h
  split at h
  · obtain ⟨c, -, rfl⟩ := Option.map_eq_some_iff.1 h
    exact keepsPages_placeOnNew s c l d key span 1 n
  next x f _ =>
    dsimp only at h
    split at h
    · cases h
      exact keepsPages_placePart s key span _
    · split at h
      · obtain ⟨c, -, rfl⟩ := Option.map_eq_some_iff.1 h
        exact (keepsPages_placeOnNew _ c l d key span _ _).after ((keepsPages_closeFiche _ x .split).after
          (keepsPages_placePart s key span _))
      · split at h
        · obtain ⟨c, -, rfl⟩ := Option.map_eq_some_iff.1 h
          exact (keepsPages_placeOnNew _ c l d key span 1 n).after (keepsPages_closeFiche s x .full)
        · obtain ⟨c, -, rfl⟩ := Option.map_eq_some_iff.1 h
          exact (keepsPages_placeOnNew _ c l d key span 1 n).after (keepsPages_freeEmptyFiche s x)

/-! ## Records -/

theorem keepsPages_updateRecord (s : State) (key : Key) (g : Record → Record) :
    KeepsPages s (s.updateRecord key g) := .of_same rfl rfl rfl

theorem keepsPages_withdrawRecord (s : State) (r : Record) : KeepsPages s (s.withdrawRecord r) :=
  (keepsPages_modifyParts (g := Fiche.withdrawPart r.span) (fun p f => buffersIn_freeRun_le f.cells p.firstCell _)
    r.parts s).same rfl rfl rfl

theorem keepsPages_rekey (s : State) (r : Record) (new : Key) : KeepsPages s (s.rekey r new) := by
  have hrekey : ∀ o : Occupied, (if o.key = r.key then { o with key := new } else o).buffer = o.buffer := by
    intro o
    split <;> rfl
  rw [rekey_eq]
  exact (keepsPages_modifyParts (g := fun _ => Fiche.rekey r.key new) (fun _ f => (buffersIn_modify hrekey f.cells).le)
    r.parts s).same rfl rfl rfl

theorem keepsPages_applyPageCount {s t : State} {r r' : Record} {count : Option Nat}
    (h : s.applyPageCount r count = some (t, r')) : KeepsPages s t := by
  unfold State.applyPageCount at h
  split at h
  · split at h
    · cases h
      exact .refl s
    · obtain ⟨f, hf, h⟩ := Option.bind_eq_some_iff.1 h
      obtain ⟨⟨cells, first⟩, hresize, h⟩ := Option.map_eq_some_iff.1 h
      cases h
      exact (keepsPages_setFiche hf (buffersIn_resize_le hresize)).same rfl rfl rfl
  · cases h
    exact .refl s

end Sys2Proof.Machine
end

section
/-! SUPPORT. The requests: each keeps Page Memory in canonical form and each buffer held at most once (R94, R95). -/
namespace Sys2Proof.Machine

/-! ## Requests that touch no page -/

/-- The requests about lanes, records, fences, the Arbiter, the curves, the lamp and the link's registers, and READ FICHE. -/
def pageSparingRequests : List (Frame → State → State × Answer) :=
  [defineLane, mapClass, lookup, findNext, readFiche, fence, loadArbitration, loadCurve, setStandby, lampOn, lampOff,
    lampClear, readStatus, readAttention, setAttentionMask, readCounters, unknownRequest]

/-- No branch of these requests changes Page Memory, Image Intake or a context. -/
theorem keepsPages_of_sparing {act : Frame → State → State × Answer} (h : act ∈ pageSparingRequests) (f : Frame)
    (s : State) : KeepsPages s (act f s).1 := by
  fin_cases h
  all_goals
    simp only [defineLane, State.columnByte, mapClass, lookup, findNext, readFiche, State.countByte, fence,
      loadArbitration, loadCurve, setStandby, lampOn, lampOff, lampClear, readStatus, readAttention, setAttentionMask,
      readCounters, unknownRequest]
    repeat' split
    all_goals exact .of_same rfl rfl rfl

theorem keepsPages_setFilm (f : Frame) (s : State) : KeepsPages s (setFilm f s).1 := by
  unfold setFilm
  dsimp only
  split
  · exact .refl s
  · exact (keepsPages_conclude _ _).after (.of_same rfl rfl rfl)

/-! ## Requests that change contexts -/

theorem keepsPages_amend (f : Frame) (s : State) : KeepsPages s (amend f s).1 := by
  unfold amend
  extract_lets key changes newKey count expected tests
  split
  · exact .refl s
  · split
    · exact .refl s
    · split
      · exact .refl s
      · split
        · exact .refl s
        · split
          · exact .refl s
          · split
            · exact .refl s
            · split
              · exact .refl s
              next t r' ht =>
                have hcounted := keepsPages_applyPageCount ht
                refine (keepsPages_stallTest _).after ((keepsPages_updateRecord _ _ _).after ?_)
                split
                · exact (keepsPages_rekey _ _ _).after hcounted
                · exact hcounted

theorem keepsPages_withdraw (f : Frame) (s : State) : KeepsPages s (withdraw f s).1 := by
  unfold withdraw
  dsimp only
  split
  · exact .refl s
  · split
    · exact .refl s
    · split
      · exact .refl s
      · split
        · exact .refl s
        · exact (keepsPages_stallTest _).after (keepsPages_withdrawRecord s _)

theorem keepsPages_purge (f : Frame) (s : State) : KeepsPages s (purge f s).1 := by
  have hfold : ∀ (rs : List Record) (t : State), KeepsPages t (rs.foldl (fun t r => t.withdrawRecord r) t) := by
    intro rs
    induction rs with
    | nil => exact .refl
    | cons r rs ih => exact fun t => (ih _).after (keepsPages_withdrawRecord t r)
  unfold purge
  split
  · exact .refl s
  · exact (keepsPages_stallTest _).after (hfold _ s)

theorem keepsPages_place (f : Frame) (s : State) : KeepsPages s (place f s).1 := by
  unfold place
  dsimp only
  repeat' split
  case h_2 p hp => exact (keepsPages_conclude _ _).after ((keepsPages_choosePlace hp).same rfl rfl rfl)
  all_goals exact .refl s

theorem keepsPages_openRequest (f : Frame) (s : State) : KeepsPages s (openFiche f s).1 := by
  unfold openFiche
  split
  · split
    · exact .refl s
    · split
      · exact .refl s
      · split
        · exact .refl s
        · exact keepsPages_openFiche s _ _ _ _
  · exact .refl s

theorem keepsPages_close (f : Frame) (s : State) : KeepsPages s (close f s).1 := by
  unfold close
  split
  · split
    · exact .refl s
    · split
      · exact .refl s
      · dsimp only
        split
        · exact keepsPages_freeEmptyFiche s _
        · exact (keepsPages_conclude _ _).after (keepsPages_closeFiche s _ _)
  · exact .refl s

theorem keepsPages_requeue (f : Frame) (s : State) : KeepsPages s (requeue f s).1 := by
  unfold requeue
  split
  · split
    · exact .refl s
    next x hx =>
      split
      · exact .refl s
      · have hset := keepsPages_setFiche hx (g := { x with attempts := 0, cellsDone := 0 }) le_rfl
        exact (keepsPages_conclude _ _).after ((keepsPages_queueFiche _ _).after hset)
  · exact .refl s

theorem keepsPages_release (f : Frame) (s : State) : KeepsPages s (release f s).1 := by
  have hcount : ∀ n, KeepsPages s (s.countByte n).2 := by
    intro n
    obtain ⟨byte, -, hbyte⟩ := countByte_eq s n
    rw [hbyte]
    exact .of_same rfl rfl rfl
  unfold release
  split
  next c serial _ _ =>
    dsimp only
    split
    · exact .refl s
    · split
      · exact .refl s
      · split
        · exact .refl s
        · exact (keepsPages_stallTest _).after (((hcount _).trans (keepsPages_emptyContext _ c rfl)).same rfl rfl rfl)
  next => exact .refl s

/-- A soft reset ends the transfer and puts back the fiche under exposure (R71, R178, R206). -/
theorem keepsPages_softReset (f : Frame) (s : State) : KeepsPages s (softReset f s).1 := by
  have hgate : KeepsPages s s.softResetGate := by
    unfold State.softResetGate
    split
    · have hcounted : KeepsPages s s.countSpoiled := .of_same rfl rfl rfl
      exact ((keepsPages_putBack _ _).after hcounted).same rfl rfl rfl
    · exact .refl s
  have hready := (keepsPages_intake s.softResetGate (i := .ready []) (.inr rfl)).after hgate
  exact (keepsPages_conclude _ _).after (hready.same rfl rfl rfl)

/-! ## A request taken from the waiting list -/

/-- Taking the frame and posting its reply touch the host port alone. -/
theorem execute_keepsPages {s t : State} {row : RequestRow} {act : Frame → State → State × Answer}
    (hact : ∀ f, KeepsPages s (act f s).1) (h : s.execute row act = .next t) : KeepsPages s t := by
  rcases execute_cases s row act with
    he | ⟨f, rest, -, -, -, ⟨k, -, he⟩ | ⟨-, u, ha, he⟩ | ⟨-, u, k, b, ha, he⟩⟩ <;>
    rw [h] at he <;> cases he
  · exact .refl s
  · exact .of_same rfl rfl rfl
  all_goals
    have hu := hact f
    rw [ha] at hu
    exact hu.same rfl rfl rfl

theorem execute_keepsPages_of_sparing {s t : State} {row : RequestRow} {act : Frame → State → State × Answer}
    (hact : act ∈ pageSparingRequests) (h : s.execute row act = .next t) : KeepsPages s t :=
  execute_keepsPages (keepsPages_of_sparing hact · s) h

end Sys2Proof.Machine
end

section
/-! SUPPORT. Every event and the step keep Page Memory in canonical form and each buffer held at most once (R94, R95). -/
namespace Sys2Proof.Machine

/-! ## Frames, the reset line and power-on -/

theorem execFrameArrival_keepsPages {s t : State} {strobed : List Byte} (h : execFrameArrival strobed s = .next t) :
    KeepsPages s t := by
  unfold execFrameArrival State.refuseFrame at h
  dsimp only at h
  repeat' split at h
  all_goals
    cases h
    exact .of_same rfl rfl rfl

theorem execSendCompletion_keepsPages {s t : State} (h : execSendCompletion s = .next t) : KeepsPages s t := by
  unfold execSendCompletion at h
  cases h
  split <;> exact .of_same rfl rfl rfl

theorem execResetLineRelease_keepsPages {s t : State} {select : Bool} (h : execResetLineRelease select s = .next t) :
    KeepsPages s t := by
  unfold execResetLineRelease at h
  cases h
  split <;> exact .of_same rfl rfl rfl

/-- With Image Intake READY and every context FREE, no buffer is held (R70, R74). -/
theorem keepsPages_of_reset {s t : State} (hm : s.memory.wf = true → t.memory.wf = true) (hi : t.intake = .ready [])
    (hc : t.composer = Composer.initial) : KeepsPages s t := by
  refine ⟨hm, fun _ => ?_⟩
  have hheld : t.heldBuffers = State.reset.heldBuffers := by
    rw [State.heldBuffers, State.cellBuffers, hi, hc]
    rfl
  rw [State.BuffersHeldOnce, hheld]
  exact reset_buffersHeldOnce

/-- The reset line keeps the spots and the upsets, and no written extent (R105, R208). -/
theorem execResetLine_keepsPages {s t : State} (h : execResetLine s = .next t) : KeepsPages s t := by
  unfold execResetLine at h
  cases h
  exact keepsPages_of_reset Memory.wf_withoutExtents rfl rfl

theorem execPowerOn_keepsPages {s t : State} (h : execPowerOn s = .next t) : KeepsPages s t := by
  unfold execPowerOn at h
  cases h
  exact keepsPages_of_reset (fun _ => Memory.reset_wf) rfl rfl

/-! ## The image port, storage and the image wait -/

theorem execImageByteTaken_keepsPages {s t : State} {byte : Byte} (h : execImageByteTaken byte s = .next t) :
    KeepsPages s t := by
  unfold execImageByteTaken at h
  split at h
  · cases h
    exact .refl s
  · split at h
    next taken hi =>
      cases h
      split
      · exact keepsPages_intake s (.inr rfl)
      · exact .refl s
    next =>
      cases h
      exact .refl s
    next m buffers lines line sums hi =>
      have hbuffers : buffers = s.intake.buffers := by rw [hi]; rfl
      dsimp only at h
      split at h
      · cases h
        exact keepsPages_intake s (.inl hbuffers)
      · split at h
        · cases h
          have hline := keepsPages_memory s (takeLine_wf m buffers lines (line ++ [byte]) sums)
          exact hline.trans (keepsPages_intake _ (.inl hbuffers))
        · cases h
          exact .refl s
    next =>
      cases h
      split
      · exact keepsPages_intake s (.inr rfl)
      · exact .refl s

theorem keepsPages_discard (s : State) (h : Header) (why : Rejection) : KeepsPages s (s.discard h why) := by
  have hreject : KeepsPages s (s.reject why) := by
    cases why <;> exact .of_same rfl rfl rfl
  refine (keepsPages_intake _ (.inr ?_)).after hreject
  split <;> rfl

theorem keepsPages_judgeHeader (s : State) (h : Header) : KeepsPages s (s.judgeHeader h) := by
  unfold State.judgeHeader
  split
  · exact keepsPages_discard s h _
  · split
    · exact keepsPages_discard s h _
    · dsimp only
      split
      · exact keepsPages_reserve s _
      · have hflag : KeepsPages s (s.setFlag poolStallBit) := .of_same rfl rfl rfl
        exact (keepsPages_intake _ (.inr rfl)).after hflag

theorem execImageHeader_keepsPages {s t : State} {byte : Byte} (h : execImageHeader byte s = .next t) :
    KeepsPages s t := by
  unfold execImageHeader at h
  split at h <;> cases h
  · split
    · exact keepsPages_judgeHeader s _
    · exact .refl s
  all_goals exact .refl s

/-- The buffers of an ended transfer go to the cells of its page, or to the pool (R87 to R89). -/
theorem keepsPages_endTransfer {s : State} (m : Matched) {buffers : List Nat} (hi : s.intake.buffers = buffers) :
    KeepsPages s (s.endTransfer m buffers) := by
  have hready : KeepsPages s { s with intake := .ready [] } := keepsPages_intake s (.inr rfl)
  have hreject : ∀ why, KeepsPages s (State.reject { s with intake := .ready [] } why) := by
    intro why
    cases why <;> exact hready.same rfl rfl rfl
  unfold State.endTransfer
  dsimp only
  split
  · exact hreject _
  next r p f hj =>
    split
    · exact hreject _
    · refine (keepsPages_completeIfDone _ _).after ((keepsPages_updateRecord _ _ _).after (.of_held_le id ?_))
      have hf : s.fiche p.ctx = some f := fiche_of_judge hj
      have hattached := cellsHeld_setContext_le (s := { s with intake := .ready [] }) (c := p.ctx) (taken := buffers)
        (x := some { f with cells := attachCells f.cells (p.cellOf r.span m.header.page) buffers m.figures.cropped })
        (by
          show _ ≤ _ + heldBy (s.fiche p.ctx)
          rw [hf]
          exact buffersIn_attachCells_le _ _ _ _)
      rw [State.held, State.held, hi]
      exact (zero_add _).trans_le hattached

theorem execImageEnd_keepsPages {s t : State} {byte : Byte} (h : execImageEnd byte s = .next t) : KeepsPages s t := by
  unfold execImageEnd at h
  split at h
  next m buffers lines line sums hi =>
    dsimp only at h
    split at h <;> cases h
    · have hwritten := keepsPages_memory s fun hm => writeTransferMargins_wf m buffers
        (takeLine_wf m buffers lines (line ++ [byte]) sums hm)
      exact (keepsPages_conclude _ _).after ((keepsPages_endTransfer m (by rw [hi]; rfl)).after hwritten)
    · exact .refl s
  all_goals
    cases h
    exact .refl s

theorem execDiscardingEnd_keepsPages {s t : State} {byte : Byte} (h : execDiscardingEnd byte s = .next t) :
    KeepsPages s t := by
  unfold execDiscardingEnd at h
  split at h <;> cases h
  · split
    · exact keepsPages_intake s (.inr rfl)
    · exact .refl s
  all_goals exact .refl s

theorem execImageAbort_keepsPages {s t : State} (h : execImageAbort s = .next t) : KeepsPages s t := by
  cases h
  exact (keepsPages_intake s (.inr rfl)).same rfl rfl rfl

theorem execStorageUpset_keepsPages {s t : State} {buffer row group bit : Nat}
    (h : execStorageUpset buffer row group bit s = .next t) : KeepsPages s t := by
  unfold execStorageUpset at h
  split at h <;> cases h
  exact keepsPages_memory s (Memory.upset_wf _ _)

theorem execImageWaitExpiry_keepsPages {s t : State} {n : Nat} (h : execImageWaitExpiry n s = .next t) :
    KeepsPages s t := by
  unfold execImageWaitExpiry at h
  split at h
  · cases h
  · split at h <;> cases h
    · exact (keepsPages_conclude _ _).after (keepsPages_expireImageWait s _)
    · exact .refl s

/-! ## Reaching a cell -/

/-- A read writes correctable groups back (R102). -/
theorem keepsPages_readBuffer (s : State) (c : CtxId) (f : Format) (buffer : Nat) :
    KeepsPages s (s.readBuffer c f buffer).2 := by
  have hback := keepsPages_memory s (Memory.writeBack_wf f buffer)
  exact ((keepsPages_modifyFiche _ c (by exact fun _ => le_rfl)).after hback).same rfl rfl rfl

theorem keepsPages_saturateCell (s : State) (c : CtxId) (cell : Nat) : KeepsPages s (s.saturateCell c cell) := by
  have hcell : KeepsPages s (s.modifyCell c cell fun o => { o with saturated := true }) :=
    keepsPages_modifyCell s c cell fun _ => rfl
  exact ((keepsPages_modifyFiche _ c (by exact fun _ => le_rfl)).after hcell).same rfl rfl rfl

theorem keepsPages_setLaneFlag (s : State) (l : LaneId) (k : LaneFlag) : KeepsPages s (s.setLaneFlag l k) :=
  .of_same rfl rfl rfl

theorem keepsPages_showCell (s : State) (c : CtxId) (f : Fiche) (cell : Nat) (o : Occupied) :
    KeepsPages s (s.showCell c f cell o).2 := by
  unfold State.showCell
  dsimp only
  split
  next b _ _ =>
    have hread := keepsPages_readBuffer s c ((s.memory.extent b).getD f.format) b
    split
    next t ht =>
      rw [ht] at hread
      exact (keepsPages_modifyCell _ c cell (by exact fun _ => rfl)).after ((keepsPages_setLaneFlag _ _ _).after hread)
    all_goals
      next t ht =>
        rw [ht] at hread
        dsimp only
        split
        · exact (keepsPages_saturateCell t c cell).after hread
        · exact hread
  next b _ _ =>
    have hread := keepsPages_readBuffer s c ((s.memory.extent b).getD f.format) b
    split
    next t ht =>
      rw [ht] at hread
      exact (keepsPages_setLaneFlag _ _ _).after hread
    all_goals
      next t ht => rwa [ht] at hread
  all_goals exact .refl s

theorem keepsPages_enterGate (s : State) (g : GateState) (x : Option Step) : KeepsPages s (s.enterGate g x) :=
  .of_same rfl rfl rfl

theorem keepsPages_finishPages (s : State) (c : CtxId) : KeepsPages s (s.finishPages c) := by
  unfold State.finishPages
  split
  · split <;> exact keepsPages_enterGate s _ _
  · exact .refl s

theorem keepsPages_reachFrom (s : State) (c : CtxId) (start : Nat) : KeepsPages s (s.reachFrom c start) := by
  unfold State.reachFrom
  split
  · split
    · exact (keepsPages_enterGate _ _ _).after (keepsPages_showCell s c _ _ _)
    · exact keepsPages_finishPages s c
  · exact .refl s

/-! ## The gate and the lamp -/

theorem execGrantDecision_keepsPages {s t : State} (h : execGrantDecision s = .next t) : KeepsPages s t := by
  have hgrant : ∀ l c rest a, KeepsPages s (s.grant l c rest a) := by
    intro l c rest a
    have hqueue : KeepsPages s (s.setQueue l rest) := .of_same rfl rfl rfl
    have hfiche := keepsPages_modifyFiche (s.setQueue l rest) c
      (g := fun f => { f with state := .exposing, cellsDone := 0 }) fun _ => le_rfl
    exact (hfiche.after hqueue).same rfl rfl rfl
  unfold execGrantDecision at h
  dsimp only at h
  repeat' split at h
  case h_2 =>
    cases h
    exact (keepsPages_conclude _ _).after (hgrant _ _ _ _)
  all_goals
    cases h
    exact .refl s

theorem execAdvanceDone_keepsPages {s t : State} (h : execAdvanceDone s = .next t) : KeepsPages s t := by
  unfold execAdvanceDone at h
  split at h
  · split at h
    next f hf =>
      cases h
      refine (keepsPages_enterGate _ _ _).after ?_
      split
      · exact keepsPages_setFiche hf le_rfl
      · exact .refl s
    next =>
      cases h
      exact .refl s
  all_goals
    cases h
    exact .refl s

theorem execTitleDone_keepsPages {s t : State} (h : execTitleDone s = .next t) : KeepsPages s t := by
  unfold execTitleDone at h
  split at h <;> cases h
  · exact keepsPages_reachFrom s _ _
  all_goals exact .refl s

theorem keepsPages_cellIsDone (s : State) (c : CtxId) : KeepsPages s (s.cellIsDone c) :=
  keepsPages_modifyFiche s c fun _ => le_rfl

theorem execCellDone_keepsPages {s t : State} (h : execCellDone s = .next t) : KeepsPages s t := by
  unfold execCellDone at h
  split at h <;> cases h
  · exact (keepsPages_reachFrom _ _ _).after (keepsPages_cellIsDone s _)
  all_goals exact .refl s

theorem execIndexCellDone_keepsPages {s t : State} (h : execIndexCellDone s = .next t) : KeepsPages s t := by
  unfold execIndexCellDone at h
  split at h
  · dsimp only at h
    split at h <;> cases h
    · split <;> exact (keepsPages_enterGate _ _ _).after (keepsPages_cellIsDone s _)
    · exact .refl s
  all_goals
    cases h
    exact .refl s

/-- The cells of an exposed fiche give their buffers to the pool (R45, R160). -/
theorem execCutCompletion_keepsPages {s t : State} (h : execCutCompletion s = .next t) : KeepsPages s t := by
  unfold execCutCompletion at h
  split at h
  next c _ =>
    split at h
    next f _ =>
      cases h
      have hexposed := keepsPages_emptyContext s c (x := some f.expose) (buffersIn_expose f)
      exact (keepsPages_conclude _ _).after ((keepsPages_stallTest _).after (hexposed.same rfl rfl rfl))
    next =>
      cases h
      exact .refl s
  all_goals
    cases h
    exact .refl s

theorem execSpoilCompletion_keepsPages {s t : State} (h : execSpoilCompletion s = .next t) : KeepsPages s t := by
  unfold execSpoilCompletion at h
  split at h <;> cases h
  · exact (keepsPages_conclude _ _).after (.of_same rfl rfl rfl)
  all_goals exact .refl s

/-- An interrupted fiche keeps its cells, put back or FAILED (R176). -/
theorem keepsPages_interruptFiche (s : State) (c : CtxId) : KeepsPages s (s.interruptFiche c) := by
  cases hf : s.fiche c with
  | none =>
    simp only [State.interruptFiche, hf]
    exact .refl s
  | some f =>
    rw [interruptFiche_of_fiche hf]
    split
    · exact (keepsPages_putBack _ c).after (keepsPages_modifyFiche s c (by exact fun _ => le_rfl))
    · exact (keepsPages_setFiche hf (g := { f with state := .failed, attempts := f.attempts + 1, cellsDone := 0 })
        le_rfl).same rfl rfl rfl

theorem keepsPages_lampFails (s : State) : KeepsPages s s.lampFails := .of_same rfl rfl rfl

theorem keepsPages_countSpoiled (s : State) : KeepsPages s s.countSpoiled := .of_same rfl rfl rfl

theorem execLampFault_keepsPages {s t : State} (h : execLampFault s = .next t) : KeepsPages s t := by
  have hspoil : ∀ c, KeepsPages s (s.lampFails.spoilExposure c) := fun c =>
    ((keepsPages_interruptFiche _ c).after ((keepsPages_countSpoiled _).after (keepsPages_lampFails s))).same rfl rfl rfl
  unfold execLampFault at h
  split at h
  · cases h
    exact .refl s
  · split at h
    · cases h
      exact .refl s
    · cases h
      exact .of_same rfl rfl rfl
    all_goals
      split at h <;> cases h
      · exact (keepsPages_conclude _ _).after (hspoil _)
      · exact keepsPages_lampFails s

theorem keepsPages_stopTransport (s : State) : KeepsPages s s.stopTransport := by
  have hflag : KeepsPages s (s.setFlag transportBit) := .of_same rfl rfl rfl
  unfold State.stopTransport
  dsimp only
  split
  · exact ((keepsPages_interruptFiche _ _).after ((keepsPages_countSpoiled _).after hflag)).same rfl rfl rfl
  · exact hflag.same rfl rfl rfl

theorem execJam_keepsPages {s t : State} (h : execJam s = .next t) : KeepsPages s t := by
  unfold execJam at h
  cases h
  split
  · exact .refl s
  · exact (keepsPages_conclude _ _).after (keepsPages_stopTransport s)

theorem execDoorOpen_keepsPages {s t : State} (h : execDoorOpen s = .next t) : KeepsPages s t := by
  unfold execDoorOpen at h
  split at h <;> cases h
  · exact .refl s
  · exact (keepsPages_conclude _ _).after ((keepsPages_stopTransport s).same rfl rfl rfl)

theorem execLampStable_keepsPages {s t : State} (h : execLampStable s = .next t) : KeepsPages s t := by
  unfold execLampStable at h
  cases h
  split <;> exact .of_same rfl rfl rfl

theorem execWarmUpExpiry_keepsPages {s t : State} (h : execWarmUpExpiry s = .next t) : KeepsPages s t := by
  unfold execWarmUpExpiry at h
  cases h
  split
  · exact keepsPages_lampFails s
  · exact .refl s

theorem execStandbyExpiry_keepsPages {s t : State} (h : execStandbyExpiry s = .next t) : KeepsPages s t := by
  unfold execStandbyExpiry at h
  cases h
  split
  · exact (keepsPages_conclude _ _).after (.of_same rfl rfl rfl)
  · exact .refl s

/-! ## The step -/

theorem exec_keepsPages {s t : State} {c : Instr} (h : exec c s = .next t) : KeepsPages s t := by
  cases c with
  | defineLane | mapClass | lookup | findNext | readFiche | fence | loadArbitration | loadCurve | setStandby | lampOn
  | lampOff | lampClear | readStatus | readAttention | setAttentionMask | readCounters | unknownRequest =>
    exact execute_keepsPages_of_sparing (by simp [pageSparingRequests]) h
  | setFilm => exact execute_keepsPages (keepsPages_setFilm · s) h
  | amend => exact execute_keepsPages (keepsPages_amend · s) h
  | withdraw => exact execute_keepsPages (keepsPages_withdraw · s) h
  | purge => exact execute_keepsPages (keepsPages_purge · s) h
  | place => exact execute_keepsPages (keepsPages_place · s) h
  | openFiche => exact execute_keepsPages (keepsPages_openRequest · s) h
  | close => exact execute_keepsPages (keepsPages_close · s) h
  | requeue => exact execute_keepsPages (keepsPages_requeue · s) h
  | release => exact execute_keepsPages (keepsPages_release · s) h
  | reset => exact execute_keepsPages (keepsPages_softReset · s) h
  | frameArrival strobed => exact execFrameArrival_keepsPages h
  | sendCompletion => exact execSendCompletion_keepsPages h
  | resetLine => exact execResetLine_keepsPages h
  | resetLineRelease select => exact execResetLineRelease_keepsPages h
  | powerOn => exact execPowerOn_keepsPages h
  | imageHeader byte => exact execImageHeader_keepsPages h
  | imageEnd byte => exact execImageEnd_keepsPages h
  | discardingEnd byte => exact execDiscardingEnd_keepsPages (byte := byte) h
  | imageAbort => exact execImageAbort_keepsPages h
  | imageWaitExpiry n => exact execImageWaitExpiry_keepsPages h
  | grantDecision => exact execGrantDecision_keepsPages h
  | advanceDone => exact execAdvanceDone_keepsPages h
  | titleDone => exact execTitleDone_keepsPages h
  | cellDone => exact execCellDone_keepsPages h
  | indexCellDone => exact execIndexCellDone_keepsPages h
  | cutCompletion => exact execCutCompletion_keepsPages h
  | spoilCompletion => exact execSpoilCompletion_keepsPages h
  | lampStable => exact execLampStable_keepsPages h
  | lampFault => exact execLampFault_keepsPages h
  | jam => exact execJam_keepsPages h
  | doorOpen => exact execDoorOpen_keepsPages h
  | warmUpExpiry => exact execWarmUpExpiry_keepsPages h
  | standbyExpiry => exact execStandbyExpiry_keepsPages h
  | storageUpset buffer row group bit => exact execStorageUpset_keepsPages h
  | imageByteTaken byte => exact execImageByteTaken_keepsPages h
  | imageAbortRelease =>
    cases h
    exact .of_same rfl rfl rfl

/-- A second changes timers alone. -/
theorem keepsPages_second (s : State) : KeepsPages s s.second := by
  have hcells : ∀ c, heldBy (s.second.fiche c) = heldBy (s.fiche c) := by
    intro c
    have hmap : s.second.fiche c = (s.fiche c).map fun f => { f with timer := countDown f.timer } := by
      simp [State.fiche, State.second, Vector.get_eq_getElem]
    rw [hmap]
    cases s.fiche c <;> rfl
  refine .of_held_le id (le_of_eq ?_)
  simp only [State.held, hcells]
  rfl

theorem step_keepsPages {s t : State} (h : step s = .next t) : KeepsPages s t := by
  unfold step at h
  split at h
  · cases h
    exact keepsPages_second s
  next c rest _ =>
    have htaken : KeepsPages s { s with pending := rest } := .of_same rfl rfl rfl
    exact (exec_keepsPages h).after htaken

/-- Settles O55: the form in the model's own terms, and every update of a step keeps it. -/
theorem stepKeepsMemoryCanonical : Obligations.StepKeepsMemoryCanonical := by
  refine ⟨fun m => ?_, fun s t hs h => (step_keepsPages h).memory hs⟩
  rw [Memory.wf_iff, sparseWf_iff, sparseWf_iff, sparseWf_iff]
  simp only [blankSpot]
  tauto

/-! ## The number of buffers -/

/-- The pool and the buffers held once are all the buffers (R95, R96). -/
theorem freePool_length {s : State} (h : s.BuffersHeldOnce) : s.freePool.length + s.heldBuffers.length = bufferCount := by
  obtain ⟨hnodup, hlt⟩ := h
  have hheld : ((List.range' 0 bufferCount).filter s.heldBuffers.contains).Perm s.heldBuffers := by
    refine (List.perm_ext_iff_of_nodup (List.Nodup.filter _ List.nodup_range') hnodup).2 fun b => ?_
    simpa [List.mem_range'_1] using hlt b
  have hsplit := List.length_eq_length_filter_add (l := List.range' 0 bufferCount) s.heldBuffers.contains
  rw [List.length_range', hheld.length_eq] at hsplit
  rw [State.freePool]
  omega

theorem heldBuffers_length (s : State) : s.heldBuffers.length = s.intake.buffers.length +
    ((List.finRange 8).map fun c => match s.fiche c with
      | some x => x.buffers.length
      | none => 0).sum := by
  rw [State.heldBuffers, List.length_append, State.cellBuffers, contexts_toList, List.length_flatMap, List.map_map]
  refine congrArg (s.intake.buffers.length + ·) (congrArg List.sum (List.map_congr_left fun c _ => ?_))
  dsimp only [Function.comp_apply]
  cases s.fiche c <;> rfl

/-- Settles O58: every update of a step takes buffers from the pool, moves them to cells of their own, or gives them up. -/
theorem stepKeepsBuffersHeldOnce : Obligations.StepKeepsBuffersHeldOnce := by
  refine ⟨fun s t hs h => (step_keepsPages h).held hs, fun s hs => ?_⟩
  have hlength := freePool_length hs
  rw [heldBuffers_length] at hlength
  exact (Nat.add_assoc ..).trans hlength

end Sys2Proof.Machine
end

section
/-! SUPPORT. Storage upsets, the condition of a check group, and reading a buffer through ECC (R101, R102). -/
namespace Sys2Proof.Machine

/-! ## The condition of a check group -/

theorem groupCondition_eq_clean_iff_differing {bits : BitVec 72} : groupCondition bits = .clean ↔ differing bits = 0 := by
  unfold groupCondition
  split <;> simp_all

theorem groupCondition_eq_correctable_iff_differing {bits : BitVec 72} :
    groupCondition bits = .correctable ↔ differing bits = 1 := by
  unfold groupCondition
  split <;> simp_all

/-- A group is clean when none of its bits differs (R101). -/
theorem groupCondition_eq_clean_iff {bits : BitVec 72} :
    groupCondition bits = .clean ↔ ∀ i < 72, bits.getLsbD i = false := by
  rw [groupCondition_eq_clean_iff_differing, differing, List.countP_eq_zero]
  simp only [List.mem_range, Bool.not_eq_true]

/-- A group is correctable when one of its bits differs and no other (R101). -/
theorem groupCondition_eq_correctable_iff {bits : BitVec 72} :
    groupCondition bits = .correctable ↔ ∃ i < 72, ∀ j < 72, bits.getLsbD j = decide (j = i) := by
  rw [groupCondition_eq_correctable_iff_differing, differing, List.countP_eq_length_filter, List.length_eq_one_iff]
  refine exists_congr fun i => ⟨fun h => ?_, fun ⟨hi, h⟩ => ?_⟩
  · have hmem : ∀ j, (j < 72 ∧ bits.getLsbD j = true) ↔ j = i := by
      intro j
      rw [← List.mem_range, ← List.mem_filter, h, List.mem_singleton]
    refine ⟨((hmem i).2 rfl).1, fun j hj => ?_⟩
    rw [Bool.eq_iff_iff, decide_eq_true_iff, ← hmem j]
    exact (and_iff_right hj).symm
  · have hfilter : (List.range 72).filter bits.getLsbD = (List.range 72).filter (· == i) :=
      List.filter_congr fun j hj => h j (List.mem_range.1 hj)
    rw [hfilter, List.filter_beq, List.count_eq_one_of_mem List.nodup_range (List.mem_range.2 hi)]
    rfl

/-! ## A read through ECC -/

/-- Reading after entries are dropped by their address and value. -/
theorem sparseGet_filter_entries {α : Type} [DecidableEq α] {d : α} {m : List (Nat × α)} (p : Nat × α → Bool)
    (h : sparseWf d m = true) (a : Nat) :
    sparseGet d (m.filter p) a = if p (a, sparseGet d m a) = true then sparseGet d m a else d := by
  by_cases hread : sparseGet d (m.filter p) a = d
  · split
    next hp =>
      by_contra hne
      have hlisted : (a, sparseGet d m a) ∈ m.filter p :=
        List.mem_filter.2 ⟨mem_of_sparseGet_ne fun hd => hne (hread.trans hd.symm), hp⟩
      exact hne (sparseGet_of_mem (sparseWf_filter p h) hlisted)
    next => exact hread
  · have hlisted := mem_of_sparseGet_ne hread
    have hv := sparseGet_of_mem h (List.mem_of_mem_filter hlisted)
    rw [hv, if_pos (List.mem_filter.1 hlisted).2]

section
variable {m : Memory} (f : Format) (buffer : Nat) (hm : m.wf = true)
include hm

/-- The groups counted are those of the extent in that condition; an unlisted group is clean (log entry 9). -/
theorem countGroups_pos_iff {condition : GroupCondition} (hc : condition ≠ .clean) :
    0 < m.countGroups f buffer condition ↔
      ∃ n, groupInExtent f buffer n = true ∧ groupCondition (sparseGet 0#72 m.upsets n) = condition := by
  obtain ⟨-, hwf, -⟩ := Memory.wf_iff.1 hm
  simp only [Memory.countGroups, List.countP_pos_iff, Bool.and_eq_true, beq_iff_eq]
  constructor
  · rintro ⟨⟨n, v⟩, hmem, hin, hcondition⟩
    exact ⟨n, hin, by rwa [sparseGet_of_mem hwf hmem]⟩
  · rintro ⟨n, hin, hcondition⟩
    refine ⟨_, mem_of_sparseGet_ne (d := 0#72) (a := n) fun hzero => hc ?_, hin, hcondition⟩
    rw [← hcondition, hzero, groupCondition_zero]

theorem readOutcome_eq_uncorrectable_iff : m.readOutcome f buffer = .uncorrectable ↔
    ∃ n, groupInExtent f buffer n = true ∧ groupCondition (sparseGet 0#72 m.upsets n) = .uncorrectable := by
  rw [← countGroups_pos_iff f buffer hm (condition := .uncorrectable) nofun, Memory.readOutcome]
  split
  · simp [*]
  · split <;> simp [*]

theorem readOutcome_eq_clean_iff : m.readOutcome f buffer = .clean ↔
    ∀ n, groupInExtent f buffer n = true → groupCondition (sparseGet 0#72 m.upsets n) = .clean := by
  have hcounts : m.readOutcome f buffer = .clean ↔
      ¬0 < m.countGroups f buffer .uncorrectable ∧ ¬0 < m.countGroups f buffer .correctable := by
    rw [Memory.readOutcome]
    split
    · simp [*]
    · split <;> simp [*]
  rw [hcounts, countGroups_pos_iff f buffer hm (condition := .uncorrectable) nofun,
    countGroups_pos_iff f buffer hm (condition := .correctable) nofun]
  push Not
  constructor
  · rintro ⟨huncorrectable, hcorrectable⟩ n hin
    cases hcondition : groupCondition (sparseGet 0#72 m.upsets n) with
    | clean => rfl
    | correctable => exact absurd hcondition (hcorrectable n hin)
    | uncorrectable => exact absurd hcondition (huncorrectable n hin)
  · intro hclean
    constructor <;> intro n hin <;> rw [hclean n hin] <;> nofun

/-- A correctable group of the extent reads as written back, every other group as before (R102). -/
theorem upsets_writeBack (n : Nat) : sparseGet 0#72 (m.writeBack f buffer).upsets n =
    if groupInExtent f buffer n = true ∧ groupCondition (sparseGet 0#72 m.upsets n) = .correctable then 0#72
    else sparseGet 0#72 m.upsets n := by
  obtain ⟨-, hwf, -⟩ := Memory.wf_iff.1 hm
  rw [Memory.writeBack, sparseGet_filter_entries _ hwf]
  by_cases h : groupInExtent f buffer n = true ∧ groupCondition (sparseGet 0#72 m.upsets n) = .correctable
  · rw [if_pos h, if_neg (by simp [h])]
  · rw [if_neg h, if_pos (by simpa [imp_iff_not_or] using h)]

end

/-! ## A storage upset -/

theorem upsets_upset {m : Memory} (hm : m.wf = true) (group bit n : Nat) :
    sparseGet 0#72 (m.upset group bit).upsets n =
      if n = group then sparseGet 0#72 m.upsets n ^^^ BitVec.twoPow 72 bit else sparseGet 0#72 m.upsets n := by
  obtain ⟨-, hwf, -⟩ := Memory.wf_iff.1 hm
  rw [Memory.upset, sparseGet_sparsePut hwf]
  split
  next h => rw [h]
  next => rfl

theorem exec_storageUpset_eq {buffer row group bit : Nat} (s : State) (hbuffer : buffer < 4096) (hrow : row < 1536)
    (hgroup : group < 256) (hbit : bit < 72) : exec (.storageUpset buffer row group bit) s =
      .next { s with memory := s.memory.upset ((buffer * 3145728 + row * 2048 + 8 * group) / 8) bit } :=
  if_pos ⟨hbuffer, hrow, hgroup, hbit⟩

/-- Settles O38: the bit that an upset changes, the conditions by the number of differing bits, and what a read finds, writes
back and delivers. -/
theorem upsetsAndReadsThroughEcc : Obligations.UpsetsAndReadsThroughEcc := by
  refine ⟨⟨rfl, fun _ _ _ _ _ => ⟨rfl, rfl⟩⟩, fun buffer row group bit s hbuffer hrow hgroup hbit hm => ?_,
    fun bits => ⟨groupCondition_eq_clean_iff, groupCondition_eq_correctable_iff⟩, fun m f buffer hm => ?_⟩
  · exact ⟨_, exec_storageUpset_eq s hbuffer hrow hgroup hbit, rfl, rfl, rfl, upsets_upset hm _ bit⟩
  · exact ⟨readOutcome_eq_uncorrectable_iff f buffer hm, readOutcome_eq_clean_iff f buffer hm, upsets_writeBack f buffer hm,
      rfl, rfl, fun x y hx hy => content_spot hm hx hy⟩

end Sys2Proof.Machine
end

section
/-! SUPPORT. ADVANCE_DONE (R156): what the layout of a title strip drops (R108, R111 to R113), and the strip exposed. -/
namespace Sys2Proof.Machine

/-! ## A clipped title -/

theorem glyphWidth_pos (t : TitleSize) : 0 < t.glyphWidth := by
  cases t <;> decide

/-- A line loses characters exactly when its glyphs together are wider than the strip (R112). -/
theorem drawnText_short_iff (f : Format) (l : TitleLine) :
    (drawnText f l).length < l.text.length ↔ f.stripWidth < l.text.length * l.size.glyphWidth := by
  rw [drawnText, List.length_take, min_lt_iff, or_iff_left (lt_irrefl _), Nat.div_lt_iff_lt_mul (glyphWidth_pos _)]

/-- Line 2 is kept when its glyphs end within the strip's 1440 rows (R111). -/
theorem line2Kept_iff (l1 l2 : TitleLine) (spacing : Nat) : line2Kept l1 l2 spacing = true ↔
    l1.size.glyphHeight + 16 * spacing + l2.size.glyphHeight ≤ 1440 := decide_eq_true_iff

theorem titleClips_one_iff (f : Format) (l1 : TitleLine) (spacing : Nat) : titleClips f [l1] spacing = true ↔
    f.stripWidth < l1.text.length * l1.size.glyphWidth := by
  simp only [titleClips, decide_eq_true_eq, drawnText_short_iff]

theorem titleClips_two_iff (f : Format) (l1 l2 : TitleLine) (spacing : Nat) :
    titleClips f [l1, l2] spacing = true ↔
      f.stripWidth < l1.text.length * l1.size.glyphWidth ∨
      1440 < l1.size.glyphHeight + 16 * spacing + l2.size.glyphHeight ∨
      f.stripWidth < l2.text.length * l2.size.glyphWidth := by
  simp only [titleClips, Bool.or_eq_true, decide_eq_true_eq, drawnText_short_iff]
  refine or_congr_right ?_
  split
  next hkept =>
    have hfits := (line2Kept_iff l1 l2 spacing).1 hkept
    rw [decide_eq_true_eq, or_iff_right (Nat.not_lt.2 hfits)]
  next hdropped =>
    have hpast := Nat.lt_of_not_le fun hfits => hdropped ((line2Kept_iff l1 l2 spacing).2 hfits)
    exact iff_of_true rfl (.inl hpast)

/-! ## The strip exposed -/

section
variable {s : State} {c : CtxId} {x : Fiche}

theorem setContext_of_fiche (hx : s.fiche c = some x) : s.setContext c (some x) = s := by
  have hcontexts : s.composer.contexts.set c.val (some x) = s.composer.contexts := by
    rw [← hx, State.fiche, Vector.get_eq_getElem, Vector.set_getElem_self]
  rw [State.setContext, hcontexts]

/-- Marking a title as clipped under a condition is raising its mark by it. -/
theorem markClipped_eq (hx : s.fiche c = some x) (clips : Bool) :
    (if clips then s.setContext c (some { x with titleClipped := true }) else s) =
      s.setContext c (some { x with titleClipped := x.titleClipped || clips }) := by
  cases clips with
  | true => rw [if_pos rfl, Bool.or_true]
  | false => rw [if_neg Bool.false_ne_true, Bool.or_false, setContext_of_fiche hx]

theorem exec_advanceDone_eq (hadvance : s.gate.state = .advance c) (hx : s.fiche c = some x) :
    exec .advanceDone s = .next
      ((s.setContext c (some { x with titleClipped := x.titleClipped || titleClips x.format x.lines x.spacing })).enterGate
        (.title c) (some (.expose 0 0 (.title x.format x.lines x.spacing) (s.driveSettings x)))) := by
  change execAdvanceDone s = _
  simp only [execAdvanceDone, hadvance, hx, markClipped_eq hx]

theorem exec_advanceDone_of_noAdvance (h : ∀ c, s.gate.state ≠ .advance c) : exec .advanceDone s = .next s := by
  change execAdvanceDone s = _
  unfold execAdvanceDone
  split
  next c hadvance => exact absurd hadvance (h c)
  all_goals rfl

end

/-- Settles O41: the sizes, the titles clipped with one line and with two, and the strip the gate exposes. -/
theorem advanceDoneExposesTitle : Obligations.AdvanceDoneExposesTitle := by
  refine ⟨⟨rfl, rfl, fun _ => rfl⟩, fun _ => exec_advanceDone_of_noAdvance, titleClips_one_iff, titleClips_two_iff, ?_⟩
  intro s c x hadvance hx
  exact exec_advanceDone_eq hadvance hx

end Sys2Proof.Machine
end

section
/-! SUPPORT. The updates of single items, and what every event ends with: FILM_OUT (R148) and the lamp's wake (R170). -/
namespace Sys2Proof.Machine

/-! ## The updates of single items -/

theorem lane_setNextSerial (s : State) (l m : LaneId) (n : Nat) :
    (s.setNextSerial l n).lane m = if m = l then { s.lane l with nextSerial := n } else s.lane m :=
  State.lane_setLane s l m _

/-! ## The end of an event -/

theorem anyQueued_iff {s : State} : s.anyQueued = true ↔ ∃ l, s.queue l ≠ [] := by
  simp [State.anyQueued, List.any_eq_true]

theorem filmOutCondition_iff {s : State} : s.filmOutCondition = true ↔ s.gate.film = 0 ∧ ∃ l, s.queue l ≠ [] := by
  rw [State.filmOutCondition, Bool.and_eq_true, beq_iff_eq, anyQueued_iff]

/-- FILM_OUT is set when its condition holds after the event and did not hold before it (R148). -/
theorem filmOutBegins_iff {before after : State} : (after.filmOutCondition && !before.filmOutCondition) = true ↔
    (after.gate.film = 0 ∧ ∃ l, after.queue l ≠ []) ∧ ¬(before.gate.film = 0 ∧ ∃ l, before.queue l ≠ []) := by
  rw [Bool.and_eq_true, Bool.not_eq_true', ← Bool.not_eq_true, filmOutCondition_iff, filmOutCondition_iff]

/-- The lamp leaves STANDBY for WARMING with the warm-up timer at 120 seconds and the standby timer stopped (R168, R170). -/
theorem lampTo_warming (g : Gate) : g.lampTo .warming = { g with lamp := .warming, warmUp := some 120, standby := none } :=
  rfl

/-- Settles O5: each update read back, and the end of an event with its two conditions in terms of queues, film and lamp. -/
theorem queuesFilmOutAndLampWake : Obligations.QueuesFilmOutAndLampWake := by
  refine ⟨fun s c x l q n => ⟨⟨rfl, fun d => State.fiche_setContext s c d x⟩, ⟨rfl, fun m => State.queue_setQueue s l m q⟩,
      ⟨rfl, fun m => lane_setNextSerial s l m n⟩, fun _ => rfl, fun _ => rfl, fun _ => rfl⟩,
    fun _ _ => ⟨rfl, rfl, rfl⟩, fun _ _ _ hx => ⟨queueFiche_of_fiche hx, putBack_of_fiche hx⟩, fun before after => ?_⟩
  rw [conclude_eq]
  congr 1
  · exact if_congr (and_congr_right' (and_congr_right' anyQueued_iff)) (lampTo_warming _) rfl
  · exact if_congr filmOutBegins_iff rfl rfl

end Sys2Proof.Machine
end

section
/-! SUPPORT. Closing: CLOSE (R124 to R127), the expiry of the image wait (R129), and REQUEUE (R131). -/
namespace Sys2Proof.Machine

/-! ## The context a CLOSE acts on -/

theorem closeCtxOf_eq_none_iff {n : Nat} : closeCtxOf n = none ↔ 8 ≤ n ∧ n ≠ 255 := by
  unfold closeCtxOf
  split
  next h => simp [h]
  next h => simp [ctxOf_eq_none_iff, h]

theorem closeCtxOf_absent {n : Nat} (h : n = 255) : closeCtxOf n = some none := if_pos h

theorem closeCtxOf_named {n : Nat} {c : CtxId} (h : n = c.val) : closeCtxOf n = some (some c) := by
  have hin : n ≠ 255 := by omega
  rw [closeCtxOf, if_neg hin, ctxOf_eq_some_iff.2 h, Option.map_some]

section
variable {s : State} {l : LaneId} {c : CtxId} {x : Fiche}

theorem closeTarget_absent_of_none (h : s.composingContext l = none) : s.closeTarget l none = .inr (.nothingOpen, []) := by
  simp only [State.closeTarget, h]

theorem closeTarget_absent_of_some (h : s.composingContext l = some c) : s.closeTarget l none = .inl c := by
  simp only [State.closeTarget, h]

/-- A named context that is FREE or of another lane leaves nothing to close (R124). -/
theorem closeTarget_named_elsewhere (h : ∀ x, s.fiche c = some x → x.lane ≠ l) :
    s.closeTarget l (some c) = .inr (.nothingOpen, []) := by
  cases hx : s.fiche c with
  | none => simp only [State.closeTarget, hx]
  | some x =>
    simp only [State.closeTarget, hx]
    exact if_pos (h x hx)

theorem closeTarget_named_frozen (hx : s.fiche c = some x) (hl : x.lane = l) (h : x.state ≠ .composing) :
    s.closeTarget l (some c) = .inr (.frozen, bytesOf 1 x.state.code) := by
  simp only [State.closeTarget, hx]
  rw [if_neg (not_not.2 hl), if_neg h]

theorem closeTarget_named_composing (hx : s.fiche c = some x) (hl : x.lane = l) (h : x.state = .composing) :
    s.closeTarget l (some c) = .inl c := by
  simp only [State.closeTarget, hx]
  rw [if_neg (not_not.2 hl), if_pos h]

end

/-! ## CLOSE -/

theorem close_malformed {f : Frame} {s : State} (h : 4 ≤ field f.body 0 1 ∨ (8 ≤ field f.body 1 1 ∧ field f.body 1 1 ≠ 255)) :
    close f s = s.refuse .malformed := by
  unfold close
  split
  next l named hl hnamed =>
    rcases h with h | h
    · rw [laneOf_eq_none_iff.2 h] at hl
      cases hl
    · rw [closeCtxOf_eq_none_iff.2 h] at hnamed
      cases hnamed
  next => rfl

section
variable {f : Frame} {s : State} {l : LaneId} {named : Option CtxId} {c : CtxId} {x : Fiche}

theorem close_refused {k : Completion} {b : List Byte} (hl : field f.body 0 1 = l.val)
    (hnamed : closeCtxOf (field f.body 1 1) = some named) (h : s.closeTarget l named = .inr (k, b)) :
    close f s = (s, some (k, b)) := by
  simp only [close, laneOf_eq_some_iff.2 hl, hnamed, h]

/-- The reply of a performed CLOSE, item by item (R127). -/
theorem closeReply_eq (c : CtxId) (serial result : Nat) (freed waits missed : Option (List Byte)) :
    ctxSerialBytes c serial ++ closeItems result freed waits missed = bytesOf 1 c.val ++ bytesOf 3 serial ++
      bytesOf 1 result ++ mayBeAbsent 3 freed ++ mayBeAbsent 3 waits ++ mayBeAbsent 2 missed := by
  simp only [ctxSerialBytes, closeItems, List.append_assoc]

/-- A CLOSE whose operands name lane l acts on context c, which holds x (R124). -/
structure ClosesFiche (f : Frame) (s : State) (l : LaneId) (c : CtxId) (x : Fiche) : Prop where
  laneNumber : field f.body 0 1 = l.val
  target : ∃ named, closeCtxOf (field f.body 1 1) = some named ∧ s.closeTarget l named = .inl c
  fiche : s.fiche c = some x
  lane : x.lane = l

/-- The context named, or the lane's COMPOSING context when none is (R124). -/
theorem ClosesFiche.of_composing (hl : field f.body 0 1 = l.val) (hx : s.fiche c = some x) (hlane : x.lane = l)
    (hstate : x.state = .composing)
    (hctx : field f.body 1 1 = c.val ∨ (field f.body 1 1 = 255 ∧ s.composingContext l = some c)) :
    ClosesFiche f s l c x := by
  refine ⟨hl, ?_, hx, hlane⟩
  rcases hctx with hnamed | ⟨habsent, hcomposing⟩
  · exact ⟨some c, closeCtxOf_named hnamed, closeTarget_named_composing hx hlane hstate⟩
  · exact ⟨none, closeCtxOf_absent habsent, closeTarget_absent_of_some hcomposing⟩

/-- An empty fiche is freed and its serial handed back (R125). -/
theorem ClosesFiche.frees (h : ClosesFiche f s l c x) (hempty : x.indexUsed = 0) :
    close f s = ((s.setContext c none).setNextSerial l x.serial,
      some (.ok, ctxSerialBytes c x.serial ++ closeItems 0 (some (bytesOf 3 x.serial)) none none)) := by
  obtain ⟨hl, ⟨named, hnamed, htarget⟩, hx, rfl⟩ := h
  simp only [close, laneOf_eq_some_iff.2 hl, hnamed, htarget, hx, State.freeEmptyFiche]
  exact if_pos hempty

/-- A fiche with a document is closed with cause HOST (R126), and the reply depends on how it left composition (R127). -/
theorem ClosesFiche.closes (h : ClosesFiche f s l c x) (hused : x.indexUsed ≠ 0) :
    close f s = (s.conclude (s.closeFiche c .host), some (.ok, ctxSerialBytes c x.serial ++
      if x.countImages .awaiting = 0 then closeItems 2 none none none
      else if x.imageWait = 0 then closeItems 2 none none (some (bytesOf 2 (x.countImages .awaiting)))
      else closeItems 1 none (some (bytesOf 2 (x.countImages .awaiting) ++ bytesOf 1 x.imageWait)) none)) := by
  obtain ⟨hl, ⟨named, hnamed, htarget⟩, hx, -⟩ := h
  simp only [close, laneOf_eq_some_iff.2 hl, hnamed, htarget, hx]
  exact if_neg hused

variable {rest : List Frame}

theorem exec_close_frees (hf : Executes s .close f rest) (h : ClosesFiche f s l c x) (hempty : x.indexUsed = 0) :
    exec .close s = .next (((s.setContext c none).setNextSerial l x.serial).answered f rest .ok
      (bytesOf 1 c.val ++ bytesOf 3 x.serial ++ [0] ++ (1 :: bytesOf 3 x.serial) ++ [0, 0, 0, 0] ++ [0, 0, 0])) := by
  have hclose := h.frees hempty
  rw [closeReply_eq] at hclose
  exact execute_answered hf hclose

theorem exec_close_completes (hf : Executes s .close f rest) (h : ClosesFiche f s l c x) (hused : x.indexUsed ≠ 0)
    (hdone : x.countImages .awaiting = 0) :
    exec .close s = .next ((s.conclude ((s.setContext c (some { x with
        state := .queued, cause := some .host, timer := none })).setQueue l (s.queue l ++ [c]))).answered f rest .ok
      (bytesOf 1 c.val ++ bytesOf 3 x.serial ++ [2] ++ [0, 0, 0, 0] ++ [0, 0, 0, 0] ++ [0, 0, 0])) := by
  have hclose := h.closes hused
  obtain rfl := h.lane
  rw [closeFiche_complete h.fiche .host hdone, if_pos hdone, closeReply_eq] at hclose
  exact execute_answered hf hclose

theorem exec_close_waits (hf : Executes s .close f rest) (h : ClosesFiche f s l c x) (hused : x.indexUsed ≠ 0)
    (hawaits : x.countImages .awaiting ≠ 0) (hwait : x.imageWait ≠ 0) :
    exec .close s = .next ((s.conclude (s.setContext c (some { x with
        state := .closing, cause := some .host, timer := some x.imageWait }))).answered f rest .ok
      (bytesOf 1 c.val ++ bytesOf 3 x.serial ++ [1] ++ [0, 0, 0, 0] ++
        (1 :: (bytesOf 2 (x.countImages .awaiting) ++ bytesOf 1 x.imageWait)) ++ [0, 0, 0])) := by
  have hclose := h.closes hused
  rw [closeFiche_waits h.fiche .host hawaits hwait, if_neg hawaits, if_neg hwait, closeReply_eq] at hclose
  exact execute_answered hf hclose

theorem exec_close_givesUp (hf : Executes s .close f rest) (h : ClosesFiche f s l c x) (hused : x.indexUsed ≠ 0)
    (hawaits : x.countImages .awaiting ≠ 0) (hwait : x.imageWait = 0) :
    exec .close s = .next ((s.conclude ((s.setContext c (some { x with
        state := .closing, cause := some .host, timer := some 0 })).expireImageWait c)).answered f rest .ok
      (bytesOf 1 c.val ++ bytesOf 3 x.serial ++ [2] ++ [0, 0, 0, 0] ++ [0, 0, 0, 0] ++
        (1 :: bytesOf 2 (x.countImages .awaiting)))) := by
  have hgivesUp : s.closeFiche c .host =
      (s.setContext c (some { x with state := .closing, cause := some .host, timer := some 0 })).expireImageWait c := by
    rw [closeFiche_of_fiche .host h.fiche]
    dsimp only
    rw [if_neg hawaits, if_pos hwait, hwait]
  have hclose := h.closes hused
  rw [hgivesUp, if_neg hawaits, if_pos hwait, closeReply_eq] at hclose
  exact execute_answered hf hclose

end

/-- Settles O27: the refusals by the context the CLOSE acts on, and one case for each way the fiche leaves composition. -/
theorem closeEndsComposition : Obligations.CloseEndsComposition := by
  intro s f rest hf
  refine ⟨fun h => execute_answered hf (close_malformed h), fun l hl => ⟨fun habsent hnone => ?_, fun c hnamed h => ?_,
    fun c x hnamed hx hlane hstate => ?_, fun c x hx hlane hstate hctx => ?_⟩⟩
  · exact execute_answered hf (close_refused hl (closeCtxOf_absent habsent) (closeTarget_absent_of_none hnone))
  · exact execute_answered hf (close_refused hl (closeCtxOf_named hnamed) (closeTarget_named_elsewhere h))
  · exact execute_answered hf (close_refused hl (closeCtxOf_named hnamed) (closeTarget_named_frozen hx hlane hstate))
  · have hcloses := ClosesFiche.of_composing hl hx hlane hstate hctx
    exact ⟨exec_close_frees hf hcloses, exec_close_completes hf hcloses, exec_close_waits hf hcloses,
      exec_close_givesUp hf hcloses⟩

/-! ## The expiry of the image wait -/

section
variable {s : State} {c : CtxId}

theorem exec_imageWaitExpiry_closing {x : Fiche} (hx : s.fiche c = some x) (hclosing : x.state = .closing) :
    exec (.imageWaitExpiry c.val) s = .next (s.conclude (s.expireImageWait c)) := by
  change execImageWaitExpiry c.val s = _
  simp only [execImageWaitExpiry, ctxOf_eq_some_iff.2 rfl, hx, Option.any_some, hclosing]
  rfl

theorem exec_imageWaitExpiry_otherwise (h : ∀ x, s.fiche c = some x → x.state ≠ .closing) :
    exec (.imageWaitExpiry c.val) s = .next s := by
  change execImageWaitExpiry c.val s = _
  simp only [execImageWaitExpiry, ctxOf_eq_some_iff.2 rfl]
  refine if_neg fun hany => ?_
  obtain ⟨x, hx, hclosing⟩ := (Option.any_eq_true _ _).1 hany
  exact h x hx (beq_iff_eq.1 hclosing)

end

/-- Settles O28: the effect of the expiry, and the event by the state of its context. -/
theorem imageWaitExpiryGivesUpPages : Obligations.ImageWaitExpiryGivesUpPages :=
  ⟨fun _ _ _ => expireImageWait_of_fiche, fun _ _ => ⟨fun _ => exec_imageWaitExpiry_closing, exec_imageWaitExpiry_otherwise⟩⟩

/-! ## REQUEUE -/

theorem requeue_malformed {f : Frame} {s : State}
    (h : 8 ≤ field f.body 0 1 ∨ (999999 < field f.body 1 3 ∧ field f.body 1 3 ≠ 0xFFFFFF)) :
    requeue f s = s.refuse .malformed := by
  unfold requeue
  split
  next c serial hc hserial =>
    rcases h with h | h
    · rw [ctxOf_eq_none_iff.2 h] at hc
      cases hc
    · rw [optionalSerialOf_eq_none_iff.2 h] at hserial
      cases hserial
  next => rfl

section
variable {f : Frame} {s : State} {c : CtxId} {x : Fiche}

theorem requeue_free (hc : field f.body 0 1 = c.val) (hserial : field f.body 1 3 ≤ 999999 ∨ field f.body 1 3 = 0xFFFFFF)
    (h : s.fiche c = none) : requeue f s = s.refuse .state := by
  obtain ⟨serial, hof, -⟩ := optionalSerialOf_eq_some hserial
  simp only [requeue, ctxOf_eq_some_iff.2 hc, hof, h]

theorem requeue_state (hc : field f.body 0 1 = c.val) (hserial : field f.body 1 3 ≤ 999999 ∨ field f.body 1 3 = 0xFFFFFF)
    (hx : s.fiche c = some x) (h : x.state ≠ .failed ∨ (field f.body 1 3 ≠ 0xFFFFFF ∧ field f.body 1 3 ≠ x.serial)) :
    requeue f s = s.refuse .state := by
  obtain ⟨serial, hof, hdiffers⟩ := optionalSerialOf_eq_some hserial
  simp only [requeue, ctxOf_eq_some_iff.2 hc, hof, hx, hdiffers]
  exact if_pos h

/-- The context joins its queue behind those that wait there, and the reply gives its position from the head (R131). -/
theorem requeue_performed (hc : field f.body 0 1 = c.val)
    (hserial : field f.body 1 3 ≤ 999999 ∨ field f.body 1 3 = 0xFFFFFF) (hx : s.fiche c = some x)
    (hfailed : x.state = .failed) (hmatch : field f.body 1 3 = 0xFFFFFF ∨ field f.body 1 3 = x.serial) :
    requeue f s = (s.conclude ((s.setContext c (some { x with
        state := .queued, timer := none, attempts := 0, cellsDone := 0 })).setQueue x.lane (s.queue x.lane ++ [c])),
      some (.ok, bytesOf 1 c.val ++ bytesOf 3 x.serial ++ bytesOf 1 ((s.queue x.lane).length + 1))) := by
  obtain ⟨serial, hof, hdiffers⟩ := optionalSerialOf_eq_some hserial
  have hqueued : (s.setContext c (some { x with attempts := 0, cellsDone := 0 })).queueFiche c =
      (s.setContext c (some { x with
        state := .queued, timer := none, attempts := 0, cellsDone := 0 })).setQueue x.lane (s.queue x.lane ++ [c]) := by
    rw [queueFiche_of_fiche (State.fiche_setContext_self ..), setContext_setContext]
    rfl
  simp only [requeue, ctxOf_eq_some_iff.2 hc, hof, hx, hdiffers, hqueued, State.queue_setQueue, if_true,
    List.length_append, List.length_singleton]
  refine if_neg (not_or.2 ⟨not_not.2 hfailed, ?_⟩)
  omega

end

/-- Settles O29: each refusal, and the context back at the tail of its queue. -/
theorem requeueReturnsFailedFiche : Obligations.RequeueReturnsFailedFiche := by
  intro s f rest hf
  exact ⟨fun h => execute_answered hf (requeue_malformed h), fun c hc hserial => ⟨fun h =>
    execute_answered hf (requeue_free hc hserial h), fun x hx => ⟨fun h =>
      execute_answered hf (requeue_state hc hserial hx h), fun hfailed hmatch =>
        execute_answered hf (requeue_performed hc hserial hx hfailed hmatch)⟩⟩⟩

end Sys2Proof.Machine
end

section
/-! SUPPORT. FENCE: its snapshot, the fence parked (R136), and the fences that a context's end settles (R137, R138). -/
namespace Sys2Proof.Machine

/-! ## The snapshot -/

/-- What context c adds to a snapshot: itself with its serial, when it is in scope and on its way to the film (R136). -/
def State.snapshotMember (s : State) (scope : Option LaneId) (c : CtxId) : Option FenceMember :=
  (s.fiche c).bind fun x =>
    if scope.all (· == x.lane) ∧ (x.state = .closing ∨ x.state = .queued ∨ x.state = .exposing) then some ⟨c, x.serial, none⟩
    else none

theorem snapshot_eq (s : State) (scope : Option LaneId) :
    s.snapshot scope = (List.finRange 8).filterMap (s.snapshotMember scope) := rfl

theorem snapshotMember_eq_some_iff {s : State} {scope : Option LaneId} {c : CtxId} {m : FenceMember} :
    s.snapshotMember scope c = some m ↔ ∃ x, s.fiche c = some x ∧ (scope.all (· == x.lane) = true ∧
      (x.state = .closing ∨ x.state = .queued ∨ x.state = .exposing)) ∧ ⟨c, x.serial, none⟩ = m := by
  simp only [State.snapshotMember, Option.bind_eq_some_iff, Option.ite_none_right_eq_some, Option.some.injEq]

theorem mem_snapshot_iff {s : State} {scope : Option LaneId} {m : FenceMember} : m ∈ s.snapshot scope ↔
    ∃ x, s.fiche m.ctx = some x ∧ (scope.all (· == x.lane) = true ∧
      (x.state = .closing ∨ x.state = .queued ∨ x.state = .exposing)) ∧ ⟨m.ctx, x.serial, none⟩ = m := by
  simp only [snapshot_eq, List.mem_filterMap, snapshotMember_eq_some_iff]
  constructor
  · rintro ⟨c, -, x, hx, h, rfl⟩
    exact ⟨x, hx, h, rfl⟩
  · rintro ⟨x, hx, h, hm⟩
    exact ⟨m.ctx, List.mem_finRange _, x, hx, h, hm⟩

/-- A scope holds a lane when it is ALL or names that lane (R136). -/
theorem scope_holds_iff {scope : Option LaneId} {l : LaneId} : scope.all (· == l) = true ↔ scope = none ∨ scope = some l := by
  cases scope <;> simp

theorem mem_snapshot_unsettled_iff {s : State} {scope : Option LaneId} {c : CtxId} {serial : Nat} :
    (⟨c, serial, none⟩ : FenceMember) ∈ s.snapshot scope ↔ ∃ x, s.fiche c = some x ∧ x.serial = serial ∧
      (scope = none ∨ scope = some x.lane) ∧ (x.state = .closing ∨ x.state = .queued ∨ x.state = .exposing) := by
  simp only [mem_snapshot_iff, scope_holds_iff, FenceMember.mk.injEq, true_and, and_true]
  exact exists_congr fun x => and_congr_right' and_comm

theorem snapshot_ascending (s : State) (scope : Option LaneId) :
    (s.snapshot scope).Pairwise fun a b => a.ctx < b.ctx := by
  rw [snapshot_eq]
  refine (List.sortedLT_finRange 8).pairwise.filterMap _ fun c d hlt a ha b hb => ?_
  obtain ⟨x, -, -, rfl⟩ := snapshotMember_eq_some_iff.1 ha
  obtain ⟨y, -, -, rfl⟩ := snapshotMember_eq_some_iff.1 hb
  exact hlt

/-! ## FENCE -/

theorem scopeOf_of_operand {n : Nat} {scope : Option LaneId}
    (h : (n = 255 ∧ scope = none) ∨ ∃ l : LaneId, n = l.val ∧ scope = some l) : scopeOf n = some scope := by
  rw [scopeOf, laneFilterOf]
  rcases h with ⟨hall, rfl⟩ | ⟨l, hl, rfl⟩
  · exact if_pos hall
  · rw [if_neg (by omega), laneOf_eq_some_iff.2 hl, Option.map_some]

section
variable {f : Frame} {s : State} {scope : Option LaneId}

theorem fence_malformed (hout : 4 ≤ field f.body 1 1) (hall : field f.body 1 1 ≠ 255) : fence f s = s.refuse .malformed := by
  simp only [fence, scopeOf, laneFilterOf_eq_none_iff.2 ⟨hout, hall⟩]

theorem fence_empty (hscope : scopeOf (field f.body 1 1) = some scope) (h : s.snapshot scope = []) :
    fence f s = (s, some (.ok, [f.body.getD 0 0, 0, 0])) := by
  simp only [fence, hscope, h]
  rfl

theorem fence_busy (hscope : scopeOf (field f.body 1 1) = some scope) (h : s.snapshot scope ≠ [])
    (hfull : 4 ≤ s.port.fences.length) : fence f s = s.refuse .busy := by
  simp only [fence, hscope]
  rw [if_neg (mt List.isEmpty_iff.1 h)]
  exact if_pos hfull

theorem fence_parks (hscope : scopeOf (field f.body 1 1) = some scope) (h : s.snapshot scope ≠ [])
    (hroom : s.port.fences.length < 4) : fence f s = ({ s with port := { s.port with
      fences := s.port.fences ++ [⟨f.byte 0, f.byte 1, f.body.getD 0 0, s.snapshot scope⟩] } }, none) := by
  simp only [fence, hscope]
  rw [if_neg (mt List.isEmpty_iff.1 h)]
  exact if_neg (Nat.not_le.2 hroom)

end

/-! ## Settling -/

theorem settled_eq (k : PendingFence) : k.settled = k.members.all fun m => m.outcome != none := by
  have hsome : (fun m : FenceMember => m.outcome.isSome) = fun m => m.outcome != none :=
    funext fun m => by cases m.outcome <;> rfl
  rw [PendingFence.settled, hsome]

/-- A fence stays pending while a member of it is unsettled (R138). -/
theorem not_settled_eq (k : PendingFence) : (!k.settled) = k.members.any fun m => m.outcome == none := by
  simp only [settled_eq, List.not_all_eq_any_not, bne, Bool.not_not]

theorem outcomeByte_eq (o : Option FenceOutcome) : bytesOf 1 ((o.map FenceOutcome.code).getD 0) =
    [if o = some .notExposed then 1 else 0] := by
  match o with
  | none | some .exposed | some .notExposed => rfl

theorem fenceReply_eq (k : PendingFence) : k.reply = ⟨k.code, k.sequence, .ok, [k.tag] ++ bytesOf 1 k.members.length ++
    bytesOf 1 (k.members.countP fun m => m.outcome == some .notExposed) ++
    k.members.flatMap fun m => bytesOf 1 m.ctx.val ++ bytesOf 3 m.serial ++
      [if m.outcome = some .notExposed then 1 else 0]⟩ := by
  simp only [PendingFence.reply, outcomeByte_eq]
  rfl

/-- Settles O31: the four answers to a FENCE by its scope, its snapshot and the room, and the fences a context settles. -/
theorem fenceParksAndSettles : Obligations.FenceParksAndSettles := by
  refine ⟨fun s f rest hf => ⟨fun hout hall => execute_answered hf (fence_malformed hout hall), fun scope hoperand => ?_⟩,
    fun s c o => ?_⟩
  · have hscope := scopeOf_of_operand hoperand
    exact ⟨fun _ _ => mem_snapshot_unsettled_iff, snapshot_ascending s scope,
      fun h => execute_answered hf (fence_empty hscope h), fun h hfull => execute_answered hf (fence_busy hscope h hfull),
      fun h hroom => execute_parked hf (fence_parks hscope h hroom)⟩
  · simp only [State.settleFences, not_settled_eq]
    rw [funext settled_eq, funext fenceReply_eq]
    rfl

end Sys2Proof.Machine
end

section
/-! SUPPORT. LOAD ARBITRATION (R149): the framing of its request, and the counts of the phases of a table. -/
namespace Sys2Proof.Machine

/-! ## Framing -/

/-- A frame of a known code whose body has not the length of its row is MALFORMED, by one check of R193 or another. -/
theorem framingRefusal_of_bodyLength_ne {f : Frame} (hknown : rowOfCode (f.byte 0) ≠ .unknown)
    (hlength : expectedLength (rowOfCode (f.byte 0)) f.body ≠ some f.body.length) :
    f.framingRefusal = some .malformed := by
  unfold Frame.framingRefusal
  by_cases hbytes : f.bytes.length < 4 ∨ f.overLong = true
  · exact if_pos hbytes
  · rw [if_neg hbytes, if_neg hknown, if_pos hlength, ite_self]

theorem row_of_code_ne_lamp {f : Frame} (h : rowOfCode (f.byte 0) ≠ .lampOn) : f.row = rowOfCode (f.byte 0) :=
  if_neg fun hlamp => h hlamp.1

/-- A request other than LAMP whose body has not the length of its row is answered MALFORMED with an empty body. -/
theorem execute_of_bodyLength_ne {s : State} {row : RequestRow} {f : Frame} {rest : List Frame}
    {act : Frame → State → State × Answer} (hreset : s.lines.resetLine = false) (hw : s.port.waiting = f :: rest)
    (hcode : rowOfCode (f.byte 0) = row) (hlamp : row ≠ .lampOn) (hknown : row ≠ .unknown)
    (hlength : expectedLength row f.body ≠ some f.body.length) :
    s.execute row act = .next (s.answered f rest .malformed []) := by
  subst hcode
  have hbody : s.misframedBody f = [] := if_neg hlamp
  rw [execute_misframed hreset hw (row_of_code_ne_lamp hlamp) (framingRefusal_of_bodyLength_ne hknown hlength), hbody]

/-! ## The phases of a table -/

theorem phaseLane_eq_some_iff {v : Byte} {l : LaneId} : phaseLane v = some l ↔ v.toNat = l.val :=
  laneOf_eq_some_iff

theorem phaseLane_eq_none_iff {v : Byte} : phaseLane v = none ↔ 4 ≤ v.toNat :=
  laneOf_eq_none_iff

theorem countP_phaseLane_some (vs : List Byte) (l : LaneId) :
    (vs.countP fun v => phaseLane v == some l) = vs.countP fun v => v.toNat == l.val :=
  List.countP_congr fun v _ => by rw [beq_iff_eq, beq_iff_eq, phaseLane_eq_some_iff]

theorem countP_phaseLane_none (vs : List Byte) :
    (vs.countP fun v => phaseLane v == none) = vs.countP fun v => decide (4 ≤ v.toNat) :=
  List.countP_congr fun v _ => by rw [beq_iff_eq, decide_eq_true_iff, phaseLane_eq_none_iff]

/-- Every phase names one lane or is a skip, so the five counts total the phases. -/
theorem phaseCounts_total (vs : List Byte) :
    (vs.countP fun v => v.toNat == 0) + (vs.countP fun v => v.toNat == 1) + (vs.countP fun v => v.toNat == 2) +
      (vs.countP fun v => v.toNat == 3) + (vs.countP fun v => decide (4 ≤ v.toNat)) = vs.length := by
  induction vs with
  | nil => rfl
  | cons v vs ih =>
    have hone : (if v.toNat = 0 then 1 else 0) + (if v.toNat = 1 then 1 else 0) + (if v.toNat = 2 then 1 else 0) +
        (if v.toNat = 3 then 1 else 0) + (if 4 ≤ v.toNat then 1 else 0) = 1 := by
      split_ifs <;> omega
    simp only [List.countP_cons, List.length_cons, beq_iff_eq, decide_eq_true_iff]
    omega

/-- The table that the 32 bytes of a body spell. -/
theorem toList_of_getElem? {body : List Byte} {table : Vector Byte 32} (hlength : body.length = 32)
    (htable : ∀ p : Fin 32, body[p.val]? = some (table.get p)) : table.toList = body := by
  refine List.ext_getElem (by simp [hlength]) fun p hp hbody => ?_
  have := htable ⟨p, by omega⟩
  rw [List.getElem?_eq_getElem hbody, Option.some.injEq] at this
  rw [this]
  simp [Vector.get_eq_getElem]

theorem ofFn_getD_of_getElem? {body : List Byte} {table : Vector Byte 32}
    (htable : ∀ p : Fin 32, body[p.val]? = some (table.get p)) :
    (Vector.ofFn fun p : Fin 32 => body.getD p.val 0) = table := by
  refine Vector.ext fun p hp => ?_
  rw [Vector.getElem_ofFn, List.getD_eq_getElem?_getD, htable ⟨p, hp⟩]
  rfl

/-- LOAD ARBITRATION of a body that spells a table. -/
theorem loadArbitration_of_table {f : Frame} {s : State} {table : Vector Byte 32} (hlength : f.body.length = 32)
    (htable : ∀ p : Fin 32, f.body[p.val]? = some (table.get p)) : loadArbitration f s =
      ({ s with arbiter := { s.arbiter with pendingTable := table, pendingFlag := true } },
        some (.ok, [if s.arbiter.pendingFlag then 1 else 0] ++
          bytesOf 1 (f.body.countP fun v => v.toNat == 0) ++ bytesOf 1 (f.body.countP fun v => v.toNat == 1) ++
          bytesOf 1 (f.body.countP fun v => v.toNat == 2) ++ bytesOf 1 (f.body.countP fun v => v.toNat == 3) ++
          bytesOf 1 (f.body.countP fun v => decide (4 ≤ v.toNat)))) := by
  simp only [loadArbitration, ofFn_getD_of_getElem? htable, toList_of_getElem? hlength htable, countP_phaseLane_some,
    countP_phaseLane_none]
  rfl

/-- Settles O39: the length checked by the framing, the counts of the body, and the table that the body spells. -/
theorem loadArbitrationWritesPendingTable : Obligations.LoadArbitrationWritesPendingTable := by
  refine ⟨fun s f rest hreset hw hcode hlength => ?_, fun f => phaseCounts_total f.body, fun s f rest hexecutes => ?_⟩
  · refine execute_of_bodyLength_ne hreset hw (by rw [hcode]; rfl) nofun nofun fun h => hlength ?_
    exact (Option.some.inj h).symm
  · have hlength : f.body.length = 32 := (Option.some.inj (expectedLength_of_executes hexecutes)).symm
    exact ⟨hlength, fun table htable => execute_answered hexecutes (loadArbitration_of_table hlength htable)⟩

end Sys2Proof.Machine
end

section
/-! SUPPORT. The grant decision: when it is due (R141), the lane it chooses (R144, R145), and the grant (R146). -/
namespace Sys2Proof.Machine

/-! ## When a decision is due -/

theorem grantDue_iff {s : State} : s.grantDue = true ↔
    s.gate.state = .idle ∧ s.gate.lamp = .ready ∧ 1 ≤ s.gate.film ∧ ∃ l, s.queue l ≠ [] := by
  simp only [State.grantDue, Bool.and_eq_true, beq_iff_eq, decide_eq_true_iff, anyQueued_iff, and_assoc]

/-- A decision stopped by the reset line, or one whose conditions do not hold, changes nothing. -/
theorem grantDecision_of_not_due {s : State} (h : s.lines.resetLine = true ∨ s.grantDue = false) :
    exec .grantDecision s = .next s :=
  if_pos (h.imp id (by rw [Bool.not_eq_true']; exact id))

/-- A due decision grants the head fiche of the lane chosen on the activated table. -/
theorem grantDecision_of_choice {s : State} {l : LaneId} {c : CtxId} {rest : List CtxId} {pointer : Fin 32}
    (hreset : s.lines.resetLine = false) (hdue : s.grantDue = true)
    (hchoice : s.choice s.arbiter.activate = some (l, pointer)) (hqueue : s.queue l = c :: rest) :
    exec .grantDecision s =
      .next (s.conclude (s.grant l c rest { s.arbiter.activate with pointer := pointer, lastLane := l })) := by
  have hgo : ¬(s.lines.resetLine = true ∨ (!s.grantDue) = true) := by simp [hreset, hdue]
  change execGrantDecision s = _
  simp only [execGrantDecision, if_neg hgo, hchoice, hqueue]

/-! ## The scan and the fallback -/

/-- The first index with a value gives it. -/
theorem findSome?_finRange_eq_some {α : Type} {n : Nat} {g : Fin n → Option α} {i : Fin n} {x : α} (hi : g i = some x)
    (hbefore : ∀ j < i, g j = none) : (List.finRange n).findSome? g = some x := by
  obtain ⟨before, after, hsplit⟩ := List.append_of_mem (List.mem_finRange i)
  have hsorted := List.pairwise_lt_finRange n
  rw [hsplit, List.pairwise_append] at hsorted
  obtain ⟨-, -, hless⟩ := hsorted
  exact List.findSome?_eq_some_iff.2 ⟨before, i, after, hsplit, hi, fun j hj =>
    hbefore j (hless j hj i List.mem_cons_self)⟩

/-- What the scan finds at a phase of value v: the phase and the lane it names, when that lane has a queued fiche (R144). -/
def State.phaseGrant (s : State) (phase : Fin 32) (v : Byte) : Option (Fin 32 × LaneId) :=
  (phaseLane v).bind fun l => if (s.queue l).isEmpty then none else some (phase, l)

theorem scan_eq (s : State) (a : Arbiter) : s.scan a =
    (List.finRange 32).findSome? fun i => s.phaseGrant (a.pointer + i) (a.active.get (a.pointer + i)) :=
  rfl

section
variable {s : State} {a : Arbiter} {l : LaneId}

theorem phaseGrant_eq_some {v : Byte} (phase : Fin 32) (hnames : v.toNat = l.val) (hqueue : s.queue l ≠ []) :
    s.phaseGrant phase v = some (phase, l) := by
  rw [State.phaseGrant, phaseLane_eq_some_iff.2 hnames, Option.bind_some, if_neg (by rwa [List.isEmpty_iff])]

/-- A skip phase, or one that names a lane with an empty queue, is passed over. -/
theorem phaseGrant_eq_none {v : Byte} (phase : Fin 32) (hempty : ∀ n : LaneId, v.toNat = n.val → s.queue n = []) :
    s.phaseGrant phase v = none := by
  refine Option.bind_eq_none_iff.2 fun m hm => if_pos ?_
  rw [List.isEmpty_iff, hempty m (phaseLane_eq_some_iff.1 hm)]

theorem scan_eq_some {i : Fin 32} (hnames : (a.active.get (a.pointer + i)).toNat = l.val) (hqueue : s.queue l ≠ [])
    (hbefore : ∀ j < i, ∀ n : LaneId, (a.active.get (a.pointer + j)).toNat = n.val → s.queue n = []) :
    s.scan a = some (a.pointer + i, l) := by
  rw [scan_eq]
  exact findSome?_finRange_eq_some (phaseGrant_eq_some _ hnames hqueue) fun j hj => phaseGrant_eq_none _ (hbefore j hj)

theorem scan_eq_none (h : ∀ (i : Fin 32) (n : LaneId), (a.active.get i).toNat = n.val → s.queue n = []) :
    s.scan a = none := by
  rw [scan_eq]
  exact List.findSome?_eq_none_iff.2 fun _ _ => phaseGrant_eq_none _ (h _)

/-- The order of the fallback is the four lanes from the one after the last granted, mod 4. -/
theorem fallbackOrder_eq (k : LaneId) : [k + 1, k + 2, k + 3, k] = (List.finRange 4).map (k + 1 + ·) := by
  decide +revert

theorem fallback_eq_some {d : Fin 4} (hqueue : s.queue (a.lastLane + 1 + d) ≠ [])
    (hbefore : ∀ e < d, s.queue (a.lastLane + 1 + e) = []) : s.fallback a = some (a.lastLane + 1 + d) := by
  have hfirst : (List.finRange 4).find? ((fun m => !(s.queue m).isEmpty) ∘ (a.lastLane + 1 + ·)) = some d :=
    find?_finRange_eq_some_iff.2 ⟨by simpa using hqueue, fun e he => by simp [hbefore e he]⟩
  rw [State.fallback, fallbackOrder_eq, List.find?_map, hfirst, Option.map_some]

theorem choice_of_scan {phase : Fin 32} (h : s.scan a = some (phase, l)) : s.choice a = some (l, phase + 1) := by
  rw [State.choice, h]

theorem choice_of_fallback (hscan : s.scan a = none) (h : s.fallback a = some l) :
    s.choice a = some (l, a.pointer) := by
  rw [State.choice, hscan, h]
  rfl

end

/-! ## The grant -/

theorem grant_of_fiche {s : State} {l : LaneId} {c : CtxId} {x : Fiche} (h : s.fiche c = some x) (rest : List CtxId)
    (a : Arbiter) : s.grant l c rest a =
      { (s.setQueue l rest).setContext c (some { x with state := .exposing, cellsDone := 0 }) with
        arbiter := a
        gate := { s.gate with state := .advance c, step := some .advance, standby := none, film := s.gate.film - 1 } } := by
  rw [State.grant, modifyFiche_of_fiche (s := s.setQueue l rest) h]
  rfl

/-- Settles O40: a decision that is not due; then the choice by the scan, or by the fallback, and the grant. -/
theorem grantDecisionGrantsOneFiche : Obligations.GrantDecisionGrantsOneFiche := by
  refine ⟨fun s hstop => grantDecision_of_not_due (hstop.imp id fun hstop => ?_),
    fun s a hreset hidle hready hfilm ha l c rest x pointer hqueue hx hchosen => ?_⟩
  · rw [← Bool.not_eq_true, grantDue_iff]
    rintro ⟨hidle, hready, hfilm, l, hl⟩
    rcases hstop with h | h | h | h
    · exact h hidle
    · exact h hready
    · omega
    · exact hl (h l)
  · have hne : s.queue l ≠ [] := by simp [hqueue]
    have hactivate : s.arbiter.activate = a := ha.symm
    have hchoice : s.choice a = some (l, pointer) := by
      rcases hchosen with ⟨i, hnames, rfl, hbefore⟩ | ⟨hnone, rfl, d, rfl, hbefore⟩
      · exact choice_of_scan (scan_eq_some hnames hne hbefore)
      · exact choice_of_fallback (scan_eq_none hnone) (fallback_eq_some hne hbefore)
    rw [grantDecision_of_choice hreset (grantDue_iff.2 ⟨hidle, hready, hfilm, l, hne⟩) (hactivate ▸ hchoice) hqueue,
      hactivate, grant_of_fiche hx]

end Sys2Proof.Machine
end

section
/-! SUPPORT. JAM and DOOR_OPEN: the exposure they interrupt (R176), and the gate they stop (R167, R173, R175). -/
namespace Sys2Proof.Machine

/-! ## An exposure interrupted -/

section
variable {s : State} {c : CtxId} {x : Fiche}

/-- The first and the second interruption put the fiche back at the head of its queue (R176). -/
theorem interruptFiche_requeues (hx : s.fiche c = some x) (h : x.attempts < 2) : s.interruptFiche c =
    (s.setContext c (some { x with attempts := x.attempts + 1, state := .queued, cellsDone := 0 })).setQueue x.lane
      (c :: s.queue x.lane) := by
  rw [interruptFiche_of_fiche hx, if_pos (by omega), modifyFiche_of_fiche hx,
    putBack_of_fiche (State.fiche_setContext_self ..), setContext_setContext]
  rfl

/-- The third interruption leaves the fiche FAILED (R176). -/
theorem interruptFiche_fails (hx : s.fiche c = some x) (h : 2 ≤ x.attempts) : s.interruptFiche c =
    ((s.setContext c (some { x with state := .failed, attempts := x.attempts + 1, cellsDone := 0 })).setFlag
      (4 * x.lane.val + 1)).settleFences c .notExposed := by
  rw [interruptFiche_of_fiche hx, if_neg (by omega)]
  rfl

end

theorem putBack_withGate (s : State) (c : CtxId) (g : Gate) :
    State.putBack { s with gate := g } c = { s.putBack c with gate := g } := by
  cases hx : s.fiche c with
  | none =>
    have hx' : State.fiche { s with gate := g } c = none := hx
    simp only [State.putBack, hx, hx']
  | some x => rw [putBack_of_fiche hx, putBack_of_fiche (s := { s with gate := g }) hx]; rfl

/-- An interruption neither reads nor changes the gate. -/
theorem interruptFiche_withGate (s : State) (c : CtxId) (g : Gate) :
    State.interruptFiche { s with gate := g } c = { s.interruptFiche c with gate := g } := by
  cases hx : s.fiche c with
  | none =>
    have hx' : State.fiche { s with gate := g } c = none := hx
    simp only [State.interruptFiche, hx, hx']
  | some x =>
    rw [interruptFiche_of_fiche hx, interruptFiche_of_fiche (s := { s with gate := g }) hx]
    split
    · exact putBack_withGate (s.modifyFiche c fun f => { f with attempts := f.attempts + 1 }) c g
    · rfl

theorem interruptFiche_gate (s : State) (c : CtxId) : (s.interruptFiche c).gate = s.gate := by
  have hgate : s.interruptFiche c = { s.interruptFiche c with gate := s.gate } := interruptFiche_withGate s c s.gate
  rw [hgate]

/-! ## The gate at rest or busy -/

theorem atRest_iff {g : GateState} : g.atRest = true ↔ g = .idle ∨ g = .stopped := by
  simp [GateState.atRest]

theorem busy_eq_false_iff {g : GateState} : g.busy = false ↔ g = .idle ∨ g = .stopped := by
  cases g <;> simp [GateState.busy, GateState.underExposure]

/-- A gate at rest stops with its curves as they are, flagged or not (log entry 20). -/
theorem stop_of_not_busy {g : Gate} (h : g.state.busy = false) :
    g.stop = { g with state := .stopped, step := none, standby := none } := by
  rw [Gate.stop, h]
  rfl

/-- A gate stopped in an exposure or a spoil cut activates its flagged curves (R167). -/
theorem stop_of_busy {g : Gate} (h : g.state.busy = true) : g.stop = { g with
    state := .stopped, step := none, standby := none
    curves := g.curves.map fun k =>
      if k.pendingFlag then { k with active := k.pendingCopy, pendingFlag := false } else k } := by
  rw [Gate.stop, if_pos h]
  rfl

/-! ## The transport stopped -/

section
variable {s : State}

theorem stopTransport_of_noExposure (h : s.gate.state.underExposure = none) : s.stopTransport = { s with
    port := { s.port with flags := s.port.flags ||| BitVec.twoPow 24 20 }
    gate := s.gate.stop } := by
  simp only [State.stopTransport, State.setFlag_gate, h]
  rfl

/-- A stop that meets an exposure counts its sheet as spoiled and interrupts its fiche (R175). -/
theorem stopTransport_of_exposure {c : CtxId} (h : s.gate.state.underExposure = some c) : s.stopTransport =
    { State.interruptFiche { s with port := { s.port with
        flags := s.port.flags ||| BitVec.twoPow 24 20
        counters := { s.port.counters with spoiledSheets := min 65535 (s.port.counters.spoiledSheets + 1) } } } c with
      gate := s.gate.stop } := by
  simp only [State.stopTransport, State.setFlag_gate, h, interruptFiche_gate, State.countSpoiled_gate]
  rfl

theorem exec_jam_eq (hreset : s.lines.resetLine = false) : exec .jam s = .next (s.conclude s.stopTransport) := by
  change execJam s = _
  rw [execJam, hreset]
  rfl

theorem exec_doorOpen_eq (hreset : s.lines.resetLine = false) : exec .doorOpen s =
    .next (s.conclude { s.stopTransport with gate := { s.stopTransport.gate with film := 0 } }) := by
  change execDoorOpen s = _
  rw [execDoorOpen, hreset]
  rfl

theorem exec_jam_in_reset (hreset : s.lines.resetLine = true) : exec .jam s = .next s := by
  change execJam s = _
  rw [execJam, if_pos hreset]

theorem exec_doorOpen_in_reset (hreset : s.lines.resetLine = true) : exec .doorOpen s = .next s := if_pos hreset

end

/-- Settles O45: both events stop the transport, with or without an exposure to interrupt. -/
theorem jamAndDoorOpenStopGate : Obligations.JamAndDoorOpenStopGate := by
  refine ⟨fun s hreset => ⟨exec_jam_in_reset hreset, exec_doorOpen_in_reset hreset⟩,
    fun s c x hx => ⟨interruptFiche_requeues hx, interruptFiche_fails hx⟩,
    fun s stopped hreset hrest hspoil hexposure => ?_⟩
  have hstopped : s.stopTransport = stopped := by
    cases h : s.gate.state.underExposure with
    | some c =>
      have hbusy : s.gate.state.busy = true := by simp [GateState.busy, h]
      rw [hexposure c (underExposure_eq_some_iff.1 h), stopTransport_of_exposure h, stop_of_busy hbusy]
    | none =>
      rw [stopTransport_of_noExposure h]
      rcases underExposure_eq_none_iff.1 h with hidle | hspoiling | hstop
      · rw [hrest (.inl hidle), stop_of_not_busy (busy_eq_false_iff.2 (.inl hidle))]
      · rw [hspoil hspoiling, stop_of_busy (by rw [hspoiling]; rfl)]
      · rw [hrest (.inr hstop), stop_of_not_busy (busy_eq_false_iff.2 (.inr hstop))]
  rw [exec_jam_eq hreset, exec_doorOpen_eq hreset, hstopped]
  exact ⟨rfl, rfl⟩

end Sys2Proof.Machine
end

section
/-! SUPPORT. LOAD CURVE (R166, R167) and SET FILM (R173). -/
namespace Sys2Proof.Machine

/-! ## LOAD CURVE -/

section
variable {f : Frame} {s : State}

theorem loadCurve_malformed (h : 4 ≤ field f.body 0 1) : loadCurve f s = s.refuse .malformed := by
  have hnone : loadCurve.laneNumber (field f.body 0 1) = none := laneOf_eq_none_iff.2 h
  simp only [loadCurve, hnone]

/-- The entries of the pending copy are those carried, lowered to 4095 (R166). -/
theorem loweredEntries_eq {entries : Vector Nat 17}
    (h : ∀ i : Fin 17, entries.get i = min 4095 (field f.body (1 + 2 * i.val) 2)) :
    ((Vector.ofFn fun i : Fin 17 => field f.body (1 + 2 * i.val) 2).map (min maxEntry)) = entries := by
  refine Vector.ext fun i hi => ?_
  rw [Vector.getElem_map, Vector.getElem_ofFn]
  exact (h ⟨i, hi⟩).symm

theorem countP_ofFn_eq_range (n : Nat) (g : Nat → Nat) (p : Nat → Bool) :
    (Vector.ofFn fun i : Fin n => g i.val).toList.countP p = (List.range n).countP fun i => p (g i) := by
  rw [Vector.toList_ofFn, List.ofFn_eq_map, List.countP_map, ← List.map_coe_finRange_eq_range, List.countP_map]
  rfl

/-- A loaded curve is active at once when the gate is at rest, and flagged otherwise (R167). -/
theorem loadedCurve_eq (k : Curve) (entries : Vector Nat 17) (g : GateState) :
    (if g.atRest = true then Curve.activate { k with pendingCopy := entries, pendingFlag := true }
      else { k with pendingCopy := entries, pendingFlag := true }) =
    if g = .idle ∨ g = .stopped then ⟨entries, entries, false⟩ else ⟨k.active, entries, true⟩ :=
  if_congr atRest_iff rfl rfl

theorem bit_atRest (g : GateState) : bit g.atRest = [if g = .idle ∨ g = .stopped then 1 else 0] :=
  congrArg (fun b => [b]) (if_congr atRest_iff rfl rfl)

theorem loadCurve_of_number {n : Fin 4} {entries : Vector Nat 17} (hn : field f.body 0 1 = n.val)
    (hentries : ∀ i : Fin 17, entries.get i = min 4095 (field f.body (1 + 2 * i.val) 2)) : loadCurve f s =
      ({ s with gate := { s.gate with
          curves := s.gate.curves.set n.val (
            if s.gate.state = .idle ∨ s.gate.state = .stopped then ⟨entries, entries, false⟩
            else ⟨(s.gate.curves.get n).active, entries, true⟩) } },
        some (.ok, bytesOf 1 n.val ++
          bytesOf 1 ((List.range 17).countP fun i => decide (4095 < field f.body (1 + 2 * i) 2)) ++
          [if s.gate.state = .idle ∨ s.gate.state = .stopped then 1 else 0])) := by
  have hnumber : loadCurve.laneNumber (field f.body 0 1) = some n := laneOf_eq_some_iff.2 hn
  simp only [loadCurve, hnumber, loweredEntries_eq hentries, loadedCurve_eq, bit_atRest,
    countP_ofFn_eq_range 17 fun i => field f.body (1 + 2 * i) 2]
  rfl

/-! ## SET FILM -/

theorem setFilm_busy (h : s.gate.state.atRest = false) : setFilm f s = s.refuse .busy := by
  simp [setFilm, h]

theorem setFilm_of_atRest (h : s.gate.state.atRest = true) : setFilm f s =
    (s.conclude { s with gate := s.gate.setFilm (min 4095 (field f.body 0 2)) },
      some (.ok, bytesOf 2 (min 4095 (field f.body 0 2)) ++ [if 4095 < field f.body 0 2 then 1 else 0] ++
        bytesOf 1 (s.gate.setFilm (min 4095 (field f.body 0 2))).state.code)) := by
  simp [setFilm, h, bit]

/-- A gate that is not STOPPED, or that is given a count of 0, stays in its state (R173). -/
theorem gateSetFilm_stays {g : Gate} {n : Nat} (h : ¬(g.state = .stopped ∧ 0 < n)) : g.setFilm n = { g with film := n } :=
  if_neg h

/-- A film count above 0 takes the gate from STOPPED to IDLE, the standby timer fresh when the lamp is READY (R173). -/
theorem gateSetFilm_restarts {g : Gate} {n : Nat} (h : g.state = .stopped) (hn : 0 < n) : g.setFilm n = { g with
    film := n, state := .idle, step := none
    standby := if g.lamp = .ready then
      some (60 * if g.standbyPeriod = 0 then 90 else g.standbyPeriod) else none } :=
  if_pos ⟨h, hn⟩

theorem stateByte_of_atRest {g : GateState} (h : g.atRest = true) :
    bytesOf 1 g.code = [if g = .idle then 0 else 7] := by
  rcases atRest_iff.1 h with rfl | rfl <;> rfl

theorem setFilm_stays (hrest : s.gate.state.atRest = true) (h : ¬(s.gate.state = .stopped ∧ 0 < field f.body 0 2)) :
    setFilm f s = (s.conclude { s with gate := { s.gate with film := min 4095 (field f.body 0 2) } },
      some (.ok, bytesOf 2 (min 4095 (field f.body 0 2)) ++ [if 4095 < field f.body 0 2 then 1 else 0] ++
        [if s.gate.state = .idle then 0 else 7])) := by
  have hstays : ¬(s.gate.state = .stopped ∧ 0 < min 4095 (field f.body 0 2)) := fun hgo => h ⟨hgo.1, by omega⟩
  rw [setFilm_of_atRest hrest, gateSetFilm_stays hstays, ← stateByte_of_atRest hrest]

theorem setFilm_restarts (hstopped : s.gate.state = .stopped) (h : field f.body 0 2 ≠ 0) :
    setFilm f s = (s.conclude { s with gate := { s.gate with
        film := min 4095 (field f.body 0 2), state := .idle, step := none
        standby := if s.gate.lamp = .ready then
          some (60 * if s.gate.standbyPeriod = 0 then 90 else s.gate.standbyPeriod) else none } },
      some (.ok, bytesOf 2 (min 4095 (field f.body 0 2)) ++ [if 4095 < field f.body 0 2 then 1 else 0] ++ [0])) := by
  rw [setFilm_of_atRest (atRest_iff.2 (.inr hstopped)), gateSetFilm_restarts hstopped (by omega)]
  rfl

end

/-- Settles O46: LOAD CURVE by its curve number, SET FILM by the state of the gate and the count. -/
theorem curvesAndFilmAreSet : Obligations.CurvesAndFilmAreSet := by
  refine ⟨fun s f rest hx => ⟨fun h => execute_answered hx (loadCurve_malformed h), fun n entries hn hentries =>
      execute_answered hx (loadCurve_of_number hn hentries)⟩,
    fun s f rest hx => ⟨fun hidle hstopped => ?_, fun h => ?_, fun hstopped h =>
      execute_answered hx (setFilm_restarts hstopped h)⟩⟩
  · have hrest : s.gate.state.atRest = false := by
      rw [← Bool.not_eq_true, atRest_iff]
      exact not_or.2 ⟨hidle, hstopped⟩
    exact execute_answered hx (setFilm_busy hrest)
  · have hrest : s.gate.state.atRest = true := atRest_iff.2 (h.imp_right And.left)
    refine execute_answered hx (setFilm_stays hrest ?_)
    rintro ⟨hstopped, hpositive⟩
    rcases h with hidle | ⟨-, hzero⟩
    · exact nomatch hidle.symm.trans hstopped
    · omega

end Sys2Proof.Machine
end

section
/-! SUPPORT. The lamp: SET STANDBY (R171), LAMP ON, OFF and CLEAR (R172), the lamp-unit events (R169, R174) and the lamp's
timers (R169, R170). -/
namespace Sys2Proof.Machine

/-! ## The lamp entering a state -/

/-- A READY lamp starts the standby timer when the gate is IDLE (R170). -/
theorem lampTo_ready (g : Gate) : g.lampTo .ready = { g with
    lamp := .ready, warmUp := none
    standby := if g.state = .idle then some (60 * if g.standbyPeriod = 0 then 90 else g.standbyPeriod) else none } := by
  rw [Gate.lampTo, if_congr (and_iff_right rfl) rfl rfl]
  rfl

/-! ## LAMP ON, OFF and CLEAR -/

section
variable {f : Frame} {s : State}

theorem lampOn_malformed (h : 3 ≤ field f.body 0 1) : lampOn f s = s.refuseLamp .malformed :=
  if_pos (by omega)

section
variable (h : field f.body 0 1 = 0)
include h

theorem lampOn_starts (hlamp : s.gate.lamp = .off ∨ s.gate.lamp = .standby) :
    lampOn f s = s.performLamp (s.gate.lampTo .warming) := by
  rw [lampOn, if_neg (not_not.2 h)]
  rcases hlamp with hlamp | hlamp <;> rw [hlamp]

theorem lampOn_stays (hlamp : s.gate.lamp = .warming ∨ s.gate.lamp = .ready) : lampOn f s = s.performLamp s.gate := by
  rw [lampOn, if_neg (not_not.2 h)]
  rcases hlamp with hlamp | hlamp <;> rw [hlamp]

theorem lampOn_in_fault (hlamp : s.gate.lamp = .fault) : lampOn f s = s.refuseLamp .state := by
  rw [lampOn, if_neg (not_not.2 h), hlamp]

end

theorem lampOff_in_fault (h : s.gate.lamp = .fault) : lampOff f s = s.refuseLamp .state :=
  if_pos h

theorem lampOff_busy (h : s.gate.lamp ≠ .fault) (hbusy : s.gate.state.busy = true) :
    lampOff f s = s.refuseLamp .busy := by
  rw [lampOff, if_neg h, if_pos hbusy]

theorem lampOff_performed (h : s.gate.lamp ≠ .fault) (hrest : s.gate.state.busy = false) :
    lampOff f s = s.performLamp (s.gate.lampTo .off) := by
  rw [lampOff, if_neg h, if_neg (Bool.eq_false_iff.1 hrest)]

theorem lampClear_refused (h : s.gate.lamp ≠ .fault) : lampClear f s = s.refuseLamp .state := by
  unfold lampClear
  split
  next hfault => exact absurd hfault h
  all_goals rfl

theorem lampClear_performed (h : s.gate.lamp = .fault) : lampClear f s = s.performLamp (s.gate.lampTo .off) := by
  rw [lampClear, h]

end

/-- Settles O48: SET STANDBY, and each LAMP action by the lamp state, OFF by the gate's too. -/
theorem standbyAndLampRequests : Obligations.StandbyAndLampRequests := by
  refine ⟨fun s f rest hx => execute_answered hx rfl,
    fun s f rest hx => ⟨fun h => execute_answered hx (lampOn_malformed h), fun h =>
      ⟨fun hlamp => execute_answered hx (lampOn_starts h hlamp), fun hlamp => execute_answered hx (lampOn_stays h hlamp),
        fun hlamp => ?_⟩⟩,
    fun s f rest hx => ⟨fun h => ?_, fun h hidle hstopped => ?_, fun h hrest =>
      execute_answered hx (lampOff_performed h (busy_eq_false_iff.2 hrest))⟩,
    fun s f rest hx => ⟨fun h => execute_answered hx (lampClear_refused h), fun h => ?_⟩⟩
  · exact execute_answered hx ((lampOn_in_fault h hlamp).trans (by rw [State.refuseLamp, hlamp]; rfl))
  · exact execute_answered hx ((lampOff_in_fault h).trans (by rw [State.refuseLamp, h]; rfl))
  · have hbusy : s.gate.state.busy = true := by
      rw [← Bool.not_eq_false, busy_eq_false_iff]
      exact not_or.2 ⟨hidle, hstopped⟩
    exact execute_answered hx (lampOff_busy h hbusy)
  · exact execute_answered hx ((lampClear_performed h).trans (by rw [State.performLamp, h]; rfl))

/-! ## The lamp-unit events and the lamp's timers -/

section
variable {s : State}

theorem exec_lampStable_ignored (h : s.lines.resetLine = true ∨ s.gate.lamp ≠ .warming) :
    exec .lampStable s = .next s :=
  congrArg _ (if_pos h)

theorem exec_lampStable_ready (hreset : s.lines.resetLine = false) (h : s.gate.lamp = .warming) :
    exec .lampStable s = .next { s with gate := s.gate.lampTo .ready } :=
  congrArg _ (if_neg (by simp [hreset, h]))

theorem exec_warmUpExpiry_ignored (h : s.gate.lamp ≠ .warming) : exec .warmUpExpiry s = .next s :=
  congrArg _ (if_neg h)

theorem exec_warmUpExpiry_fails (h : s.gate.lamp = .warming) : exec .warmUpExpiry s = .next s.lampFails :=
  congrArg _ (if_pos h)

theorem exec_standbyExpiry_ignored (h : s.gate.standby = none) : exec .standbyExpiry s = .next s :=
  congrArg _ (if_neg (by simp [h]))

theorem exec_standbyExpiry_rests (h : s.gate.standby ≠ none) :
    exec .standbyExpiry s = .next (s.conclude { s with gate := s.gate.lampTo .standby }) :=
  congrArg _ (if_pos (Option.isSome_iff_ne_none.2 h))

theorem exec_lampFault_in_reset (h : s.lines.resetLine = true) : exec .lampFault s = .next s := if_pos h

section
variable (hreset : s.lines.resetLine = false)
include hreset

theorem exec_lampFault_when_off (h : s.gate.lamp = .off) : exec .lampFault s = .next s := by
  change execLampFault s = _
  simp only [execLampFault, hreset, h, Bool.false_eq_true, if_false]

theorem exec_lampFault_in_fault (h : s.gate.lamp = .fault) : exec .lampFault s = .next (s.setFlag lampFaultBit) := by
  change execLampFault s = _
  simp only [execLampFault, hreset, h, Bool.false_eq_true, if_false]

/-- A lamp that is WARMING, READY or in STANDBY fails, and spoils the sheet of the exposure it meets (R169, R174). -/
theorem exec_lampFault_eq (hoff : s.gate.lamp ≠ .off) (hfault : s.gate.lamp ≠ .fault) : exec .lampFault s =
    .next (s.gate.state.underExposure.elim s.lampFails fun c => s.conclude (s.lampFails.spoilExposure c)) := by
  change execLampFault s = _
  rw [execLampFault, hreset]
  cases hlamp : s.gate.lamp with
  | off => exact absurd hlamp hoff
  | fault => exact absurd hlamp hfault
  | warming | ready | standby => cases s.gate.state.underExposure <;> rfl

end

theorem spoilExposure_lampFails (c : CtxId) : s.lampFails.spoilExposure c =
    { State.interruptFiche { s with port := { s.port with
        flags := s.port.flags ||| BitVec.twoPow 24 21
        counters := { s.port.counters with spoiledSheets := min 65535 (s.port.counters.spoiledSheets + 1) } } } c with
      gate := { s.gate with
        lamp := .fault, warmUp := none, state := .spoil, step := some .spoilCut, standby := none } } := by
  have hfails : s.lampFails.countSpoiled =
      { (s.setFlag lampFaultBit).countSpoiled with gate := s.gate.lampTo .fault } := rfl
  rw [State.spoilExposure, hfails, interruptFiche_withGate]
  rfl

end

/-- Settles O49: each event by the lamp state, and a lamp fault by the exposure it meets or does not meet. -/
theorem lampEventsByLampState : Obligations.LampEventsByLampState := by
  refine ⟨fun s hreset => ⟨exec_lampStable_ignored (.inl hreset), exec_lampFault_in_reset hreset⟩,
    fun s hreset h => ?_, fun s h => ⟨exec_lampStable_ignored (.inr h), exec_warmUpExpiry_ignored h⟩,
    fun s h => exec_warmUpExpiry_fails h, fun s h => exec_standbyExpiry_rests h, fun s h => exec_standbyExpiry_ignored h,
    fun s hreset => ⟨exec_lampFault_when_off hreset, exec_lampFault_in_fault hreset, fun hoff hfault =>
      ⟨fun hgate => ?_, fun c hgate => ?_⟩⟩⟩
  · rw [exec_lampStable_ready hreset h, lampTo_ready]
  · rw [exec_lampFault_eq hreset hoff hfault, underExposure_eq_none_iff.2 hgate]
    rfl
  · rw [exec_lampFault_eq hreset hoff hfault, underExposure_eq_some_iff.2 hgate, Option.elim_some,
      spoilExposure_lampFails]

end Sys2Proof.Machine
end

section
/-! SUPPORT. The framing of requests: the fields of a body (R187), the row and the body length of a code (R186), and the
framing checks in their order (R193). -/
namespace Sys2Proof.Machine

/-! ## The fields of a body -/

/-- A field one byte longer counts its last byte once, the others 256 times. -/
theorem field_succ {body : List Byte} {offset width : Nat} {b : Byte} (h : body[offset + width]? = some b) :
    field body offset (width + 1) = 256 * field body offset width + b.toNat := by
  have hlast : (body.drop offset)[width]? = some b := by rw [List.getElem?_drop, h]
  rw [field, List.take_add_one, hlast, Option.toList_some, numberOf_append]
  rfl

theorem fieldText_getElem? {body : List Byte} {offset length i : Nat} (h : i < length) :
    (fieldText body offset length)[i]? = body[offset + i]?.map BitVec.toNat := by
  rw [fieldText, List.getElem?_map, List.getElem?_take_of_lt h, List.getElem?_drop]

theorem getElem?_of_lt_length {body : List Byte} {offset : Nat} (h : offset < body.length) :
    ∃ b, body[offset]? = some b ∧ field body offset 1 = b.toNat :=
  ⟨body[offset], List.getElem?_eq_getElem h, field_one_of_getElem? (List.getElem?_eq_getElem h)⟩

/-! ## The body lengths that are computed -/

section
variable {body : List Byte}

theorem expectedLength_defineLane (h : 8 ≤ body.length) :
    expectedLength .defineLane body = some (23 + field body 5 1 + field body 7 1) := by
  obtain ⟨l1, hl1, hfield1⟩ := getElem?_of_lt_length (body := body) (offset := 5) (by omega)
  obtain ⟨l2, hl2, hfield2⟩ := getElem?_of_lt_length (body := body) (offset := 7) (by omega)
  simp only [expectedLength, hl1, hl2, hfield1, hfield2]

theorem expectedLength_defineLane_short (h : body.length < 8) : expectedLength .defineLane body = none := by
  simp only [expectedLength, List.getElem?_eq_none (show body.length ≤ 7 by omega)]
  cases body[5]? <;> rfl

theorem expectedLength_openFiche_short (h : body.length < 2) : expectedLength .openFiche body = none := by
  simp only [expectedLength, List.getElem?_eq_none (show body.length ≤ 1 by omega), Option.map_none]

/-- The line count of an OPEN FICHE that carries one. -/
theorem lineCount_getElem? (h : 2 ≤ body.length) : body[1]?.map BitVec.toNat = some (field body 1 1) := by
  obtain ⟨b, hb, hfield⟩ := getElem?_of_lt_length (body := body) (offset := 1) (by omega)
  rw [hb, hfield, Option.map_some]

theorem expectedLength_openFiche_noLine (h : 2 ≤ body.length) (hcount : field body 1 1 = 0) :
    expectedLength .openFiche body = some 3 := by
  simp only [expectedLength, lineCount_getElem? h, hcount]

theorem expectedLength_openFiche_oneLine (h : 2 ≤ body.length) (hcount : field body 1 1 = 1) :
    expectedLength .openFiche body = if 3 ≤ body.length then some (5 + field body 2 1) else none := by
  simp only [expectedLength, lineCount_getElem? h, hcount]
  split_ifs with hl1
  · obtain ⟨l1, hl1, hfield⟩ := getElem?_of_lt_length (body := body) (offset := 2) (by omega)
    rw [hl1, hfield, Option.map_some]
  · rw [List.getElem?_eq_none (by omega), Option.map_none]

theorem expectedLength_openFiche_twoLines (h : 2 ≤ body.length) (hcount : field body 1 1 = 2) :
    expectedLength .openFiche body = if 3 ≤ body.length ∧ 5 + field body 2 1 ≤ body.length then
      some (7 + field body 2 1 + field body (4 + field body 2 1) 1) else none := by
  simp only [expectedLength, lineCount_getElem? h, hcount]
  by_cases hthird : 3 ≤ body.length
  · obtain ⟨l1, hl1, hfield1⟩ := getElem?_of_lt_length (body := body) (offset := 2) (by omega)
    simp only [hl1, hfield1]
    split_ifs with hl2
    · obtain ⟨l2, hl2, hfield2⟩ := getElem?_of_lt_length (body := body) (offset := 4 + l1.toNat) (by omega)
      rw [hl2, hfield2, Option.map_some]
    · rw [List.getElem?_eq_none (by omega), Option.map_none]
  · rw [if_neg fun hboth => hthird hboth.1, List.getElem?_eq_none (by omega)]

/-- A line count above 2 leaves the length uncompared (R186). -/
theorem expectedLength_openFiche_manyLines (h : 2 ≤ body.length) (hcount : 3 ≤ field body 1 1) :
    expectedLength .openFiche body = some body.length := by
  obtain ⟨n, hn⟩ := Nat.exists_eq_add_of_le' hcount
  simp only [expectedLength, lineCount_getElem? h, hn]

end

/-! ## Rows and codes -/

theorem rowOfCode_eq_lampOn_iff {code : Byte} : rowOfCode code = .lampOn ↔ code = 0x63#8 := by
  constructor
  · unfold rowOfCode
    split
    case h_19 hcode => exact fun _ => BitVec.eq_of_toNat_eq hcode
    all_goals exact nofun
  · rintro rfl
    rfl

/-- A code outside the table of R186 names no request. -/
theorem rowOfCode_eq_unknown {code : Byte} (h : code.toNat ∉ [0x10, 0x11, 0x20, 0x21, 0x22, 0x23, 0x24, 0x30, 0x31, 0x32,
    0x40, 0x41, 0x42, 0x43, 0x50, 0x60, 0x61, 0x62, 0x63, 0x70, 0x71, 0x72, 0x73, 0x7F]) : rowOfCode code = .unknown := by
  unfold rowOfCode
  split
  case h_25 => rfl
  all_goals next hcode => simp [hcode] at h

/-! ## The framing checks, in their order -/

section
variable {f : Frame}

theorem framingRefusal_of_bytes (h : f.bytes.length < 4 ∨ f.overLong = true) : f.framingRefusal = some .malformed :=
  if_pos h

section
variable (hbytes : 4 ≤ f.bytes.length) (hshort : f.overLong = false)
include hbytes hshort

/-- A frame that passes the first check is held to the other three. -/
theorem framingRefusal_of_whole : f.framingRefusal =
    if rowOfCode (f.byte 0) = .unknown then some .unknown
    else if f.bytes.length ≠ 4 + (256 * (f.byte 2).toNat + (f.byte 3).toNat) then some .malformed
    else if expectedLength (rowOfCode (f.byte 0)) f.body ≠ some f.body.length then some .malformed
    else none := by
  have hnumber : numberOf [f.byte 2, f.byte 3] = 256 * (f.byte 2).toNat + (f.byte 3).toNat := by simp [numberOf]
  rw [Frame.framingRefusal, if_neg (by simp [hshort, hbytes]), hnumber]

theorem framingRefusal_unknown (h : rowOfCode (f.byte 0) = .unknown) : f.framingRefusal = some .unknown := by
  rw [framingRefusal_of_whole hbytes hshort, if_pos h]

variable (hknown : rowOfCode (f.byte 0) ≠ .unknown)
include hknown

theorem framingRefusal_of_length_ne (h : f.bytes.length ≠ 4 + (256 * (f.byte 2).toNat + (f.byte 3).toNat)) :
    f.framingRefusal = some .malformed := by
  rw [framingRefusal_of_whole hbytes hshort, if_neg hknown, if_pos h]

theorem framingRefusal_eq_none (hlength : f.bytes.length = 4 + (256 * (f.byte 2).toNat + (f.byte 3).toNat))
    (h : expectedLength (rowOfCode (f.byte 0)) f.body = some f.body.length) : f.framingRefusal = none := by
  rw [framingRefusal_of_whole hbytes hshort, if_neg hknown, if_neg (not_not.2 hlength), if_neg (not_not.2 h)]

end

/-! ## The row of a frame -/

/-- A frame refused for its framing belongs to the row of its code, a LAMP to LAMP_ON (log entry 2). -/
theorem row_of_misframed (h : f.framingRefusal ≠ none) : f.row = rowOfCode (f.byte 0) :=
  if_neg fun hlamp => h hlamp.2

/-- A LAMP frame belongs to the row of its action, one of no known action to LAMP_ON (log entry 2). -/
theorem row_of_lamp (hlamp : rowOfCode (f.byte 0) = .lampOn) (hframing : f.framingRefusal = none) : f.row =
    if field f.body 0 1 = 1 then .lampOff else if field f.body 0 1 = 2 then .lampClear else .lampOn := by
  simp only [Frame.row, hlamp, hframing, and_self, if_true]
  split
  next haction => rw [haction]; rfl
  next haction => rw [haction]; rfl
  next hoff hclear => rw [if_neg hoff, if_neg hclear]

theorem misframedBody_eq (s : State) (f : Frame) :
    s.misframedBody f = if f.byte 0 = 0x63#8 then bytesOf 1 s.gate.lamp.code else [] :=
  if_congr rowOfCode_eq_lampOn_iff rfl rfl

end

/-! ## The command of a row -/

/-- The command of every row is an execution of a request of that row. -/
theorem exec_command (row : RequestRow) : ∃ act, ∀ s, exec row.command s = s.execute row act := by
  cases row <;> exact ⟨_, fun _ => rfl⟩

theorem execute_of_not_due {s : State} {row : RequestRow} {act : Frame → State → State × Answer}
    (h : s.lines.resetLine = true ∨ ∀ f rest, s.port.waiting = f :: rest → f.row ≠ row) :
    s.execute row act = .next s := by
  cases hw : s.port.waiting with
  | nil => simp only [State.execute, hw]
  | cons f rest => simp only [State.execute, hw, if_pos (h.imp_right fun hrow => hrow f rest hw)]

/-- A request refused by a framing check is answered by the command of its row. -/
theorem exec_misframed {s : State} {f : Frame} {rest : List Frame} {k : Completion} (hreset : s.lines.resetLine = false)
    (hw : s.port.waiting = f :: rest) (hrefused : f.framingRefusal = some k) : exec f.row.command s =
      .next (s.answered f rest k (if f.byte 0 = 0x63#8 then bytesOf 1 s.gate.lamp.code else [])) := by
  obtain ⟨act, hact⟩ := exec_command f.row
  rw [hact, execute_misframed hreset hw rfl hrefused, misframedBody_eq]

theorem exec_command_of_not_due {s : State} {row : RequestRow}
    (h : s.lines.resetLine = true ∨ ∀ f rest, s.port.waiting = f :: rest → f.row ≠ row) :
    exec row.command s = .next s := by
  obtain ⟨act, hact⟩ := exec_command row
  rw [hact, execute_of_not_due h]

/-- Settles O53: fields, codes, body lengths, the checks in their order, and what a refused frame and a command that is not
due leave. -/
theorem framingChecksComeFirst : Obligations.FramingChecksComeFirst := by
  refine ⟨fun body offset width i => ⟨rfl, fun b => field_succ, rfl, fieldText_getElem?⟩, ?_, ?_,
    fun body => ⟨expectedLength_defineLane, expectedLength_defineLane_short, expectedLength_openFiche_short,
      expectedLength_openFiche_noLine, expectedLength_openFiche_oneLine, expectedLength_openFiche_twoLines,
      expectedLength_openFiche_manyLines⟩,
    fun f => ⟨framingRefusal_of_bytes, fun hbytes hshort => ⟨framingRefusal_unknown hbytes hshort, fun hknown =>
      ⟨framingRefusal_of_length_ne hbytes hshort hknown, fun hlength =>
        ⟨framingRefusal_of_bodyLength_ne hknown, framingRefusal_eq_none hbytes hshort hknown hlength⟩⟩⟩⟩,
    fun s f rest k => exec_misframed,
    fun f => ⟨row_of_code_ne_lamp, fun hlamp => ⟨fun hrefused => (row_of_misframed hrefused).trans hlamp, row_of_lamp hlamp⟩⟩,
    fun s row => exec_command_of_not_due⟩
  · intro rows hrows
    refine ⟨by subst hrows; decide, fun code hcode => rowOfCode_eq_unknown ?_⟩
    have hlisted : code.toNat ∉ rows.map Prod.fst := by
      rw [List.mem_map]
      exact fun ⟨e, he, h⟩ => hcode e he h
    subst hrows
    exact hlisted
  · simp [expectedLength]

end Sys2Proof.Machine
end

section
/-! SUPPORT. The step on a waiting command and on an empty queue (R128, R168, R170), what power-on leaves (R209), and the
reset line (R208). -/
namespace Sys2Proof.Machine

/-! ## The step -/

section
variable {s : State}

/-- A timer at 1 waits for its expiry, and any other loses its second (log entry 3). -/
theorem countDown_eq (timer : Option Nat) : countDown timer = timer.map fun n => if 1 < n then n - 1 else n := by
  match timer with
  | none | some 0 | some 1 => rfl
  | some (n + 2) => simp [countDown]

theorem step_of_command {c : Instr} {rest : List Instr} (h : s.pending = c :: rest) :
    step s = exec c { s with pending := rest } := by
  simp only [step, h]

theorem step_of_noCommand (h : s.pending = []) : step s = .next s.second := by
  simp only [step, h]

end

/-- Settles O1: a command at the front is executed; with none, a second passes on every timer. -/
theorem stepRunsFrontCommand : Obligations.StepRunsFrontCommand := by
  refine ⟨fun c rest s => step_of_command, fun s second hempty hsecond => ?_⟩
  obtain rfl : second = countDown := funext fun timer => (hsecond timer).trans (countDown_eq timer).symm
  exact step_of_noCommand hempty

/-! ## Power-on -/

theorem lane_reset (l : LaneId) : State.reset.lane l = ⟨0, none⟩ := Vector.get_replicate _ _ l

theorem queue_reset (l : LaneId) : State.reset.queue l = [] := Vector.get_replicate _ _ l

theorem classMap_reset (c : Fin 16) : State.reset.laneTable.classMap.get c = 0 := Vector.get_replicate _ _ c

theorem curve_reset (n : Fin 4) : State.reset.gate.curves.get n = Curve.initial := Vector.get_replicate _ _ n

/-- R165: the straight line of 255 a step. -/
theorem straightCurve_get (i : Fin 17) :
    Curve.initial.active.get i = 255 * i.val ∧ Curve.initial.pendingCopy.get i = 255 * i.val := by
  simp [Curve.initial, Vector.get_eq_getElem]

theorem defaultTable_get (p : Fin 32) : Arbiter.defaultTable.get p = BitVec.ofNat 8 (p.val % 4) := by
  simp [Arbiter.defaultTable, Vector.get_eq_getElem]

/-- With no buffer held, the pool is all of them. -/
theorem freePool_reset : State.reset.freePool = List.range' 0 4096 := by
  have hnone : State.reset.heldBuffers = [] := rfl
  simp [State.freePool, hnone, bufferCount]

/-- Settles O3: the tables are filled with one value each, the default table and the curves are given by position, and the
other items are those of the reset state. -/
theorem powerOnLeavesResetValues : Obligations.PowerOnLeavesResetValues := by
  refine ⟨fun s => rfl, lane_reset, classMap_reset, rfl, fiche_reset, queue_reset, rfl, freePool_reset, rfl,
    defaultTable_get, defaultTable_get, rfl, rfl, rfl, rfl, rfl, rfl, rfl, rfl, rfl, rfl, fun n i => ?_,
    rfl, rfl, rfl, rfl, rfl, rfl, by decide⟩
  obtain ⟨hactive, hpending⟩ := straightCurve_get i
  rw [curve_reset]
  exact ⟨hactive, hpending, rfl⟩

/-! ## The reset line -/

theorem exec_resetLineRelease_asserted {s : State} (h : s.lines.resetLine = true) (select : Bool) :
    exec (.resetLineRelease select) s = .next { s with
      lines := { s.lines with resetLine := false, staleSelect := select } } :=
  congrArg _ (if_pos h)

theorem attentionLine_in_reset {s : State} (h : s.lines.resetLine = true) : s.attentionLine = false := by
  rw [State.attentionLine, h, Bool.not_true, Bool.false_and]

/-- Settles O4: the assertion's state, field by field, its release, and the two lines out of the part while it is asserted. -/
theorem resetLineForgetsTheWork : Obligations.ResetLineForgetsTheWork :=
  ⟨fun _ => rfl, fun _ => exec_resetLineRelease_asserted, fun _ h => ⟨attentionLine_in_reset h, holdLine_iff.2 (.inl h)⟩⟩

end Sys2Proof.Machine
end

section
/-! SUPPORT. READ ATTENTION (R198), SET ATTENTION MASK (R199), the attention line (R197) and READ COUNTERS (R202). -/
namespace Sys2Proof.Machine

/-! ## The attention line -/

/-- Two values share a set bit exactly when their conjunction is not 0. -/
theorem and_ne_zero_iff {w : Nat} {x y : BitVec w} :
    x &&& y ≠ 0#w ↔ ∃ i < w, x.getLsbD i = true ∧ y.getLsbD i = true := by
  constructor
  · intro hne
    by_contra! hnone
    refine hne (BitVec.eq_of_getLsbD_eq fun i hi => ?_)
    have hy := hnone i hi
    cases hx : x.getLsbD i <;> simp_all
  · rintro ⟨i, -, hx, hy⟩ hzero
    have hbit := congrArg (·.getLsbD i) hzero
    simp [hx, hy] at hbit

theorem attentionLine_iff {s : State} : s.attentionLine = true ↔ s.lines.resetLine = false ∧
    ∃ i < 24, s.port.flags.getLsbD i = true ∧ s.port.mask.getLsbD i = true := by
  rw [State.attentionLine, Bool.and_eq_true, Bool.not_eq_true', bne_iff_ne, and_ne_zero_iff]

/-! ## READ ATTENTION and SET ATTENTION MASK -/

section
variable {f : Frame} {s : State} {v : BitVec 24}

theorem reservedSet_iff : reservedSet v = true ↔ v.getLsbD 22 = true ∨ v.getLsbD 23 = true := by
  rw [reservedSet, Bool.or_eq_true]

theorem reservedSet_eq_false (h22 : v.getLsbD 22 = false) (h23 : v.getLsbD 23 = false) : reservedSet v = false := by
  rw [reservedSet, h22, h23, Bool.or_false]

variable (hv : v = BitVec.ofNat 24 (field f.body 0 3))
include hv

theorem readAttention_refused (h : reservedSet v = true) : readAttention f s = s.refuse .malformed := by
  subst hv
  exact if_pos h

theorem readAttention_performed (h : reservedSet v = false) : readAttention f s =
    ({ s with port := { s.port with flags := s.port.flags &&& ~~~v } },
      some (.ok, bytesOf 3 s.port.flags.toNat ++ bytesOf 3 s.port.mask.toNat ++
        bytesOf 3 (s.port.flags &&& ~~~v).toNat)) := by
  subst hv
  exact if_neg (Bool.not_eq_true _ ▸ h)

theorem setAttentionMask_refused (h : reservedSet v = true) : setAttentionMask f s = s.refuse .malformed := by
  subst hv
  exact if_pos h

theorem setAttentionMask_performed (h : reservedSet v = false) : setAttentionMask f s =
    ({ s with port := { s.port with mask := v } },
      some (.ok, bytesOf 3 s.port.mask.toNat ++ bytesOf 3 v.toNat ++ bytesOf 3 s.port.flags.toNat)) := by
  subst hv
  exact if_neg (Bool.not_eq_true _ ▸ h)

end

/-! ## READ COUNTERS -/

/-- The bytes of the seven counters, in the order of R201. -/
theorem counterBytes_eq (k : Counters) : k.list.flatMap (bytesOf 2) =
    bytesOf 2 k.correctedEcc ++ bytesOf 2 k.uncorrectableEcc ++ bytesOf 2 k.spoiledSheets ++ bytesOf 2 k.orphanImages ++
      bytesOf 2 k.lateImages ++ bytesOf 2 k.missingPlaceholders ++ bytesOf 2 k.saturatedCells := by
  simp only [Counters.list, List.flatMap_cons, List.flatMap_nil, List.append_nil, List.append_assoc]

section
variable {f : Frame} {s : State}

theorem readCounters_refused (h : 2 ≤ field f.body 0 1) : readCounters f s = s.refuse .malformed := by
  simp only [readCounters, yesNoOf_eq_none_iff.2 h]

theorem readCounters_kept (h : field f.body 0 1 = 0) :
    readCounters f s = (s, some (.ok, s.port.counters.list.flatMap (bytesOf 2) ++ [0])) := by
  simp only [readCounters, h, yesNoOf]
  rfl

theorem readCounters_cleared (h : field f.body 0 1 = 1) : readCounters f s =
    ({ s with port := { s.port with counters := ⟨0, 0, 0, 0, 0, 0, 0⟩ } },
      some (.ok, s.port.counters.list.flatMap (bytesOf 2) ++ [1])) := by
  simp only [readCounters, h, yesNoOf]
  rfl

end

/-- Settles O51: the counters' order, each request refused and performed, and the attention line. -/
theorem attentionAndCounterRequests : Obligations.AttentionAndCounterRequests := by
  refine ⟨fun k => rfl, fun s f rest v hx hv => ?_, fun s f rest v hx hv => ?_, fun s => attentionLine_iff,
    fun s f rest read hx hread => ?_⟩
  · exact ⟨fun h => execute_answered hx (readAttention_refused hv (reservedSet_iff.2 h)),
      fun h22 h23 => execute_answered hx (readAttention_performed hv (reservedSet_eq_false h22 h23))⟩
  · exact ⟨fun h => execute_answered hx (setAttentionMask_refused hv (reservedSet_iff.2 h)),
      fun h22 h23 => execute_answered hx (setAttentionMask_performed hv (reservedSet_eq_false h22 h23))⟩
  · rw [← counterBytes_eq] at hread
    subst hread
    exact ⟨fun h => execute_answered hx (readCounters_refused h), fun h => execute_answered hx (readCounters_kept h),
      fun h => execute_answered hx (readCounters_cleared h)⟩

end Sys2Proof.Machine
end

section
/-! SUPPORT. Frames that arrive (R182, R190, R191) and replies that leave (R183, R185); a code that names no request (R193). -/
namespace Sys2Proof.Machine

section
variable {s : State}

/-! ## A code that names no request -/

theorem exec_unknownRequest {f : Frame} {rest : List Frame} (hreset : s.lines.resetLine = false)
    (hw : s.port.waiting = f :: rest) (hbytes : 4 ≤ f.bytes.length) (hshort : f.overLong = false)
    (hunknown : rowOfCode (f.byte 0) = .unknown) : exec .unknownRequest s = .next (s.answered f rest .unknown []) := by
  have hrefused : f.framingRefusal = some .unknown := framingRefusal_unknown hbytes hshort hunknown
  have hrow : f.row = .unknown := (row_of_misframed (by simp [hrefused])).trans hunknown
  have hbody : s.misframedBody f = [] := if_neg (by simp [hunknown])
  rw [← hbody]
  exact execute_misframed hreset hw hrow hrefused

/-! ## What is outstanding -/

theorem outstanding_eq (s : State) : s.outstanding = s.port.waiting.length +
    s.port.outbound.countP (fun r => r.completion ≠ .queueFull) + s.port.fences.length := by
  have hsent : (fun r : Reply => r.completion != .queueFull) = fun r => decide (r.completion ≠ .queueFull) :=
    funext fun r => by rw [bne, beq_eq_decide, decide_not]
  rw [State.outstanding, hsent]

theorem queueFullReplies_eq (s : State) :
    queueFullReplies s = s.port.outbound.countP fun r => r.completion = .queueFull := by
  simp only [queueFullReplies, beq_eq_decide]

/-! ## A frame that is not taken -/

theorem refuseFrame_answered (h : queueFullReplies s < 8) (f : Frame) : s.refuseFrame f = { s with
    port := { s.port with
      outbound := s.port.outbound ++ [⟨f.byte 0, f.byte 1, .queueFull, bytesOf 1 s.port.dropped⟩]
      dropped := 0 } } :=
  if_neg (by omega)

theorem refuseFrame_dropped (h : 8 ≤ queueFullReplies s) (f : Frame) :
    s.refuseFrame f = { s with port := { s.port with dropped := min 255 (s.port.dropped + 1) } } :=
  if_pos h

/-- The part keeps the first bytes of what is strobed, and whether there were more (R182). -/
def takenFrame (strobed : List Byte) : Frame := ⟨strobed.take 132, decide (132 < strobed.length)⟩

theorem takenFrame_byte (strobed : List Byte) {i : Nat} (h : i < 132) :
    (takenFrame strobed).byte i = strobed.getD i 0 := by
  rw [Frame.byte, takenFrame, List.getElem?_take_of_lt h, List.getD_eq_getElem?_getD]

/-! ## FRAME_ARRIVAL -/

section
variable {strobed : List Byte}

theorem exec_frameArrival_in_reset (h : s.lines.resetLine = true) : exec (.frameArrival strobed) s = .next s := if_pos h

variable (hreset : s.lines.resetLine = false)
include hreset

theorem exec_frameArrival_stale (h : s.lines.staleSelect = true) : exec (.frameArrival strobed) s =
    .next { s with lines := { s.lines with staleSelect := false } } := by
  change execFrameArrival strobed s = _
  simp only [execFrameArrival, hreset, h, Bool.false_eq_true, if_false, if_true]

variable (hstale : s.lines.staleSelect = false)
include hstale

theorem exec_frameArrival_empty : exec (.frameArrival []) s = .next s := by
  change execFrameArrival [] s = _
  simp only [execFrameArrival, hreset, hstale, List.isEmpty_nil, Bool.false_eq_true, if_false, if_true]

/-- Strobed bytes are a frame, which is taken while fewer than 16 requests are outstanding (R190). -/
theorem exec_frameArrival_eq (h : strobed ≠ []) : exec (.frameArrival strobed) s =
    .next (if s.outstanding < 16 then
      { s with port := { s.port with waiting := s.port.waiting ++ [takenFrame strobed] } }
    else s.refuseFrame (takenFrame strobed)) := by
  change execFrameArrival strobed s = _
  simp only [execFrameArrival, hreset, hstale, List.isEmpty_iff, h, Bool.false_eq_true, if_false]
  rfl

end

/-! ## SEND_COMPLETION -/

theorem exec_sendCompletion_in_reset (h : s.lines.resetLine = true) : exec .sendCompletion s = .next s :=
  congrArg _ (if_pos h)

theorem exec_sendCompletion_sent (h : s.lines.resetLine = false) : exec .sendCompletion s =
    .next { s with port := { s.port with outbound := s.port.outbound.drop 1 } } := by
  rw [List.drop_one]
  exact congrArg _ (if_neg (by simp [h]))

end

/-- Settles O54: a frame of no request, a frame that arrives by the lines and by what is outstanding, and a reply sent. -/
theorem framesArriveAndRepliesLeave : Obligations.FramesArriveAndRepliesLeave := by
  refine ⟨⟨fun r => rfl, by decide⟩,
    fun s f rest hreset hw hbytes hshort hcode =>
      exec_unknownRequest hreset hw hbytes hshort (rowOfCode_eq_unknown hcode),
    fun s => ⟨fun strobed => exec_frameArrival_in_reset, exec_frameArrival_empty,
      fun strobed => exec_frameArrival_stale⟩,
    fun s strobed hreset hstale hne => ?_, fun s => ⟨outstanding_eq s, queueFullReplies_eq s⟩,
    fun s => ⟨exec_sendCompletion_in_reset, exec_sendCompletion_sent⟩⟩
  rw [exec_frameArrival_eq hreset hstale hne]
  refine ⟨fun hroom => ?_, fun hfull hfew => ?_, fun hfull hmany => ?_⟩
  · rw [if_pos hroom]
    rfl
  · rw [if_neg (by omega), refuseFrame_answered hfew, takenFrame_byte strobed (by decide),
      takenFrame_byte strobed (by decide)]
  · rw [if_neg (by omega), refuseFrame_dropped hmany]

end Sys2Proof.Machine
end
